-- ==== Sys2Proof/Word.lean ====
section
/-! DEFINITION. The words of the CORE: the operation word, the clock reading, the pin number, the line level,
one entry of the sample store and the five payload bytes. Types only. -/

namespace Sys2Proof

/-- An operation word, 48 bits (30_encoding.md R90). -/
abbrev OpWord := BitVec 48

/-- A reading of the Clock Source or a difference of two, `u32` microseconds (00_scope.md R6 `TIME_BITS`,
60_exceptions.md R280). -/
abbrev Micros := BitVec 32

/-- A pin number, `u8` (00_scope.md R6 `PIN_BITS`). -/
abbrev PinNum := BitVec 8

/-- A logic level of the pin: 0 = low, 1 = high (00_scope.md R12). -/
inductive Level where
  | low
  | high
  deriving DecidableEq, Repr, Inhabited

/-- One entry of the sample store, 33 bits `{level, duration}` (20_memory.md R61). -/
structure Sample where
  duration : Micros
  level : Level
  deriving DecidableEq, Repr, Inhabited

/-- The five payload byte registers `data[0..4]`, `u8` each (10_state.md R38). -/
structure Payload where
  b0 : BitVec 8
  b1 : BitVec 8
  b2 : BitVec 8
  b3 : BitVec 8
  b4 : BitVec 8
  deriving DecidableEq, Repr, Inhabited

end Sys2Proof
end

