-- ==== Sys2Proof/Syntax.lean ====
section
/-! DEFINITION. The operations of the CORE as syntax, one constructor per row of the opcode map (30_encoding.md R97),
the two execution contexts, and the ways a word can fail to be an operation. -/

namespace Sys2Proof

/-- The ten operations of 30_encoding.md R97. The operand `t` of the encoding is called `now` and `l` is called
`level`, as in R96. -/
inductive Instr where
  /-- ARM (40_capture_buffer.md R121). -/
  | arm
  /-- ENABLE (40_capture_buffer.md R122). -/
  | enable
  /-- EDGE (40_capture_buffer.md R123). -/
  | edge (level : Level) (now : Micros)
  /-- DISARM (40_capture_buffer.md R127). -/
  | disarm
  /-- RDCNT (40_capture_buffer.md R130). -/
  | rdcnt
  /-- RDSMP (40_capture_buffer.md R131). -/
  | rdsmp (idx : BitVec 8)
  /-- START (41_reset_sequencer.md R152). -/
  | start (pin : PinNum) (now : Micros)
  /-- TICK (41_reset_sequencer.md R155). -/
  | tick (now : Micros)
  /-- DECODE (42_protocol_decoder.md R190). -/
  | decode
  /-- RDRES (42_protocol_decoder.md R205). -/
  | rdres
  deriving DecidableEq, Repr

/-- The two execution contexts of the CORE (60_exceptions.md R282). -/
inductive Context where
  /-- CB, the transition callback: issues EDGE and nothing else. -/
  | callback
  /-- CT, the controlling execution: issues every other operation. -/
  | controlling
  deriving DecidableEq, Repr

/-- Why a word is a reserved encoding (30_encoding.md R98). -/
inductive DecodeError where
  /-- `op` is 0x0 or 0xB to 0xF. -/
  | reservedOpcode (op : BitVec 4)
  /-- A must-be-zero bit of the named operation's format is 1. -/
  | mustBeZero (mnemonic : String)
  deriving DecidableEq, Repr

end Sys2Proof
end

