-- ==== Sys2Proof/Decode.lean ====
section
/-! DEFINITION. Decoding an operation word, total and rejecting by name, the encoder, and the context that may issue
each operation (30_encoding.md R90 to R98). -/

namespace Sys2Proof

/-- The bit of the `l` field: 0 = low, 1 = high. -/
def Level.bit : Level → BitVec 1
  | .low => 0
  | .high => 1

/-- The level a bit stands for. -/
def Level.ofBit (b : BitVec 1) : Level := if b = 1 then .high else .low

/-- Bits 47:44, the opcode (R90). -/
def opField (w : OpWord) : BitVec 4 := w.extractLsb' 44 4

/-- Bit 32, `l` (R92, R96). -/
def lField (w : OpWord) : BitVec 1 := w.extractLsb' 32 1

/-- Bits 31:0, `t` (R92, R93, R94, R96). -/
def tField (w : OpWord) : Micros := w.extractLsb' 0 32

/-- Bits 39:32, `pin` (R94, R96). -/
def pinField (w : OpWord) : PinNum := w.extractLsb' 32 8

/-- Bits 7:0, `idx` (R95, R96). -/
def idxField (w : OpWord) : BitVec 8 := w.extractLsb' 0 8

/-- Bits 43:0, all reserved in format N (R91). -/
def reservedN (w : OpWord) : BitVec 44 := w.extractLsb' 0 44

/-- Bits 43:33, reserved in format E (R92). -/
def reservedE (w : OpWord) : BitVec 11 := w.extractLsb' 33 11

/-- Bits 43:32, reserved in format T (R93). -/
def reservedT (w : OpWord) : BitVec 12 := w.extractLsb' 32 12

/-- Bits 43:40, reserved in format S (R94). -/
def reservedS (w : OpWord) : BitVec 4 := w.extractLsb' 40 4

/-- Bits 43:8, reserved in format I (R95). -/
def reservedI (w : OpWord) : BitVec 36 := w.extractLsb' 8 36

/-- An operation if the reserved bits of its format are zero, else a rejection that names it (R98). -/
def ifZero {n : Nat} (reserved : BitVec n) (mnemonic : String) (i : Instr) : Except DecodeError Instr :=
  if reserved = 0 then .ok i else .error (.mustBeZero mnemonic)

/-- The opcode map (R97). Opcodes 0x0 and 0xB to 0xF are reserved (R98). -/
def decode (w : OpWord) : Except DecodeError Instr :=
  match (opField w).toNat with
  | 0x1 => ifZero (reservedN w) "ARM" .arm
  | 0x2 => ifZero (reservedN w) "ENABLE" .enable
  | 0x3 => ifZero (reservedE w) "EDGE" (.edge (Level.ofBit (lField w)) (tField w))
  | 0x4 => ifZero (reservedN w) "DISARM" .disarm
  | 0x5 => ifZero (reservedN w) "RDCNT" .rdcnt
  | 0x6 => ifZero (reservedI w) "RDSMP" (.rdsmp (idxField w))
  | 0x7 => ifZero (reservedS w) "START" (.start (pinField w) (tField w))
  | 0x8 => ifZero (reservedT w) "TICK" (.tick (tField w))
  | 0x9 => ifZero (reservedN w) "DECODE" .decode
  | 0xA => ifZero (reservedN w) "RDRES" .rdres
  | _ => .error (.reservedOpcode (opField w))

/-- The word of an operation, laid out by its format (R91 to R95, R97). -/
def encode : Instr → OpWord
  | .arm => 0x1#4 ++ 0#44
  | .enable => 0x2#4 ++ 0#44
  | .edge level now => 0x3#4 ++ 0#11 ++ level.bit ++ now
  | .disarm => 0x4#4 ++ 0#44
  | .rdcnt => 0x5#4 ++ 0#44
  | .rdsmp idx => 0x6#4 ++ 0#36 ++ idx
  | .start pin now => 0x7#4 ++ 0#4 ++ pin ++ now
  | .tick now => 0x8#4 ++ 0#12 ++ now
  | .decode => 0x9#4 ++ 0#44
  | .rdres => 0xA#4 ++ 0#44

/-- The one context that may issue an operation, fixed by the opcode (R97 column Ctx; 60_exceptions.md R282). -/
def Instr.context : Instr → Context
  | .edge _ _ => .callback
  | .arm | .enable | .disarm | .rdcnt | .rdsmp _ | .start _ _ | .tick _ | .decode | .rdres => .controlling

/-- What the decoder reads from an operation whose bits are `w`, `nbits` of them given by the opcode table and any
above them 0; every operation is one 48-bit word (R90). -/
def decodeTableWord (nbits w : Nat) : Option Instr :=
  if nbits ≤ 48 ∧ w < 2 ^ nbits then (decode (BitVec.ofNat 48 w)).toOption else none

end Sys2Proof
end

