-- ==== Sys2Proof/Config.lean ====
section
/-! DEFINITION. The implementation parameters of the CORE (00_scope.md R6, R7) and the free values of the model:
opaque constants that nothing can evaluate, one for each value the spec leaves unspecified. -/

namespace Sys2Proof

/-- Which level EDGE stores with a sample (00_scope.md R7): the level after the transition, or the level the pin
held during the measured interval. -/
inductive LevelSense where
  | after
  | before
  deriving DecidableEq, Repr

/-- The parameters of 00_scope.md R6 and R7, one field for each entry of the table, each with the value the source
states as its default. A threshold is a number, as R9 compares it; that it fits the clock is a check
(`Config.WellFormed`). `pinMax` is OPEN in the spec: its default is a DESIGN CHOICE (log 1). -/
structure Config where
  /-- `CAPACITY`: entries of the sample store. -/
  capacity : Nat := 200
  /-- `MIN_EDGES`: the least `count` the decoder accepts. -/
  minEdges : Nat := 10
  /-- `T_ACK`: scan threshold, compared with `>=`. -/
  tAck : Nat := 500
  /-- `T_HALF`: acknowledgement-half threshold, compared with `>`. -/
  tHalf : Nat := 65
  /-- `T_BIT`: bit threshold, compared with `>=`. -/
  tBit : Nat := 40
  /-- `T_LOW`: reset low hold. -/
  tLow : Nat := 2000
  /-- `T_SETTLE`: high hold before the release. -/
  tSettle : Nat := 20
  /-- `T_WINDOW`: observation window. -/
  tWindow : Nat := 100000
  /-- `PAYLOAD_BITS`: bits of a payload. Not changeable (R6). -/
  payloadBits : Nat := 40
  /-- `TIME_BITS`: width of the clock, of `last_time` and of `duration`, which is that of `Micros` (log 2). -/
  timeBits : Nat := 32
  /-- `PIN_BITS`: width of a pin number, which is that of `PinNum` (log 2). -/
  pinBits : Nat := 8
  /-- `PIN_MAX`: the largest admissible pin number. -/
  pinMax : Nat := 255
  /-- `LEVEL_SENSE`. -/
  levelSense : LevelSense := .after
  deriving DecidableEq, Repr

/-- FREE VALUE (log 11). What an entry that no EDGE has written since reset holds: "unspecified for every entry"
(10_state.md R24). -/
opaque Config.unwrittenSample : Nat → Sample

/-- FREE VALUE (log 12). The `n`-th draw: the response to RDSMP of an entry at or above `count`, "any 33-bit value"
(40_capture_buffer.md R131). -/
opaque Config.staleEntry : Nat → BitVec 33

/-- FREE VALUE (log 13). The `n`-th draw: bits 32:0 of the RDRES response while `res_valid` is 0, "unspecified"
(30_encoding.md R104). -/
opaque Config.noReadingBits : Nat → BitVec 33

/-- FREE VALUE (log 9). `last_time` after the reset event that makes the `n`-th draw (10_state.md R47). -/
opaque Config.resetLastTime : Nat → Micros

/-- FREE VALUE (log 9). `seq_pin` after the reset event. -/
opaque Config.resetSeqPin : Nat → PinNum

/-- FREE VALUE (log 9). `seq_t0` after the reset event. -/
opaque Config.resetSeqT0 : Nat → Micros

/-- FREE VALUE (log 9). `pin_o` after the reset event. -/
opaque Config.resetPinO : Nat → Level

/-- FREE VALUE (log 9). `dec_idx` after the reset event. -/
opaque Config.resetDecIdx : Nat → BitVec 8

/-- FREE VALUE (log 9). `dec_nbits` after the reset event. -/
opaque Config.resetDecNbits : Nat → BitVec 6

/-- FREE VALUE (log 9). `data[0..4]` after the reset event. -/
opaque Config.resetData : Nat → Payload

end Sys2Proof
end

