-- ==== Sys2Proof/Machine/State.lean ====
section
/-! DEFINITION. The state of the CORE as plain data (10_state.md R20), the reasons a step stops, and the machine right
after reset (10_state.md R47). -/

namespace Sys2Proof.Machine

/-- The values of `count` (10_state.md R21): `waiting` is -1, no arming edge since the last ARM; `stored n` is `n`
samples at indices `0 .. n-1`. -/
inductive Cursor where
  | waiting
  | stored (n : Nat)
  deriving DecidableEq, Repr

/-- The sequencer's states (10_state.md R30). -/
inductive SeqState where
  | idle
  | lowHold
  | settle
  | observe
  | done
  | failed
  deriving DecidableEq, Repr

/-- The decoder's states (10_state.md R35). Between operations only `idle` and `done` are observed; the other four
belong to the stepwise form (42_protocol_decoder.md R210). -/
inductive DecState where
  | idle
  | scan
  | ack
  | bits
  | sum
  | done
  deriving DecidableEq, Repr

/-- The failure codes of `err` (10_state.md R39, 60_exceptions.md R260). -/
inductive Err where
  | none
  | hardwareAcquisitionFailure
  | insufficientData
  | noAcknowledgement
  | malformedAcknowledgement
  | checksumMismatch
  | allZeroPayload
  deriving DecidableEq, Repr

/-- The inferred sensor kind, `res_kind` (10_state.md R41). -/
inductive Kind where
  | a
  | b
  deriving DecidableEq, Repr

/-- The result registers `res_kind`, `res_hum` (tenths of a percent) and `res_temp` (two's complement, tenths of a
degree), which hold a value exactly while `res_valid` is 1 (10_state.md R40 to R43). -/
structure Reading where
  kind : Kind
  hum : BitVec 16
  temp : BitVec 16
  deriving DecidableEq, Repr

/-- The sample store (20_memory.md R60): the entries written since reset, by index. Canonical form: `Memory.wf`. -/
abbrev Store := List (Nat × Sample)

/-- The canonical form of the store: indices strictly rising, each below `CAPACITY`. -/
abbrev Memory.wf (capacity : Nat) (m : Store) : Prop :=
  m.Pairwise (fun a b => a.1 < b.1) ∧ ∀ e ∈ m, e.1 < capacity

/-- The answer of a driver call that returns a Result (00_scope.md R10). -/
inductive DrvResult where
  | ok
  | fail
  deriving DecidableEq, Repr

/-- A pin direction (60_exceptions.md R276). -/
inductive Direction where
  | input
  | output
  deriving DecidableEq, Repr

/-- The environment's answers to the calls one operation can make: at most one of each (41_reset_sequencer.md R152,
R157), written after `=>` in a trace (00_scope.md R11). -/
structure DrvAnswers where
  claim : DrvResult := .ok
  onTransition : DrvResult := .ok
  setDirection : DrvResult := .ok
  deriving DecidableEq, Repr

/-- A call on the Digital Pin Driver, with its answer where it returns one (60_exceptions.md R274 to R279). -/
inductive DrvCall where
  | claim (pin : PinNum) (answer : DrvResult)
  | release (pin : PinNum)
  | setDirection (pin : PinNum) (dir : Direction) (answer : DrvResult)
  | write (pin : PinNum) (level : Level)
  | onTransition (pin : PinNum) (answer : DrvResult)
  | offTransition (pin : PinNum)
  deriving DecidableEq, Repr

/-- The response of an operation to its issuer, as the word of 30_encoding.md R101 to R104; `none` for the operations
that return nothing (R100). -/
inductive Response where
  | none
  | start (word : BitVec 2)
  | count (word : BitVec 9)
  | sample (word : BitVec 33)
  | result (word : BitVec 41)
  deriving DecidableEq, Repr

/-- One operation word as an agent issues it, with the environment's answers to the driver calls it will make. -/
structure Issued where
  issuer : Context
  word : OpWord
  answers : DrvAnswers := {}
  deriving DecidableEq, Repr

/-- What the outside world can present to the CORE: an operation, or the reset event, which is no operation word and
belongs to no context (70_reset_and_hazards.md R300). -/
inductive Event where
  | op (o : Issued)
  | reset
  deriving DecidableEq, Repr

/-- Why the machine stops with a fault: never. "No situation is treated as fault or stuck: the CORE has no trap for
misuse and no operation that blocks" (93_implementation_defined.md). -/
inductive Fault where
  deriving DecidableEq, Repr

/-- Why an operation is given no step. Each is refused by the spec's own direction and is safe: nothing can be proved
of a run past it. -/
inductive Refusal where
  /-- An instruction the model has no meaning for; no arm of `exec` answers it. Safe. -/
  | notModelled (mnemonic : String)
  /-- Raised by the fetch on a word that matches no row of the opcode map (30_encoding.md R98, U9). Safe. -/
  | reservedEncoding (why : DecodeError)
  /-- Raised by the fetch on EDGE issued by the controlling context, or any other operation issued by the callback
  (60_exceptions.md R282, U10). Safe. -/
  | wrongContext (issuer : Context)
  /-- Raised by DECODE while `cb_en` is 1 (42_protocol_decoder.md R190, U4). Safe. -/
  | decodeWhileEnabled
  /-- Raised by RDSMP with `idx >= CAPACITY` (40_capture_buffer.md R131, U6). Safe. -/
  | noSuchEntry
  deriving DecidableEq, Repr

/-- The state of the CORE: the registers of 10_state.md R20 and the sample store; then the model's own fields, from
`cfg` on, which stand for the parameters and the environment of a step (R44). -/
structure State where
  /-- `count` (R21). -/
  count : Cursor
  /-- `last_level`; `none` is `unset` (R22). -/
  lastLevel : Option Level
  /-- `last_time` (R23). -/
  lastTime : Micros
  /-- `sample[0 .. CAPACITY-1]` (R24). -/
  store : Store
  /-- `cb_en` (R25). -/
  cbEn : Bool
  /-- `seq_state` (R30). -/
  seqState : SeqState
  /-- `seq_pin` (R31). -/
  seqPin : PinNum
  /-- `seq_t0` (R32). -/
  seqT0 : Micros
  /-- `pin_claimed` (R33). -/
  pinClaimed : Bool
  /-- `pin_oe` (R33). -/
  pinOe : Bool
  /-- `pin_o` (R33). -/
  pinO : Level
  /-- `dec_state` (R35). -/
  decState : DecState
  /-- `dec_idx` (R36). -/
  decIdx : BitVec 8
  /-- `dec_nbits` (R37). -/
  decNbits : BitVec 6
  /-- `data[0..4]` (R38). -/
  data : Payload
  /-- `err` (R39). -/
  err : Err
  /-- `res_valid` with `res_kind`, `res_hum`, `res_temp`: the optional reading of R40 (log 14). -/
  reading : Option Reading
  /-- MODEL: the parameters of 00_scope.md R6 and R7 (log 1). No step changes them. -/
  cfg : Config
  /-- MODEL: what the agents have presented, next first (log 3). -/
  pending : List Event
  /-- MODEL: the environment's answers for the operation in hand (log 5). -/
  answers : DrvAnswers
  /-- MODEL: the driver calls made so far, oldest first (log 6). -/
  calls : List DrvCall
  /-- MODEL: the response of the last operation (log 7). -/
  response : Response
  /-- MODEL: how many free values have been drawn (log 10). -/
  draws : Nat
  deriving DecidableEq, Repr

/-- The machine right after reset in a configuration (10_state.md R47). The registers R47 calls unspecified hold the
values log 8 names (DESIGN CHOICE, unsafe). -/
def State.resetWith (c : Config) : State where
  count := .waiting
  lastLevel := none
  lastTime := 0
  store := []
  cbEn := false
  seqState := .idle
  seqPin := 0
  seqT0 := 0
  pinClaimed := false
  pinOe := false
  pinO := .low
  decState := .idle
  decIdx := 0
  decNbits := 0
  data := ⟨0, 0, 0, 0, 0⟩
  err := .none
  reading := none
  cfg := c
  pending := []
  answers := {}
  calls := []
  response := .none
  draws := 0

/-- The machine right after reset, with every parameter at its default (00_scope.md R6). -/
def State.reset : State := State.resetWith {}

end Sys2Proof.Machine
end

