-- ==== Sys2Proof/Machine/Operands.lean ====
section
/-! DEFINITION. The arithmetic of the operands and the words of the responses: clock differences, the stored level,
the payload bytes, the fields of a reading, the register encodings and the response words. -/

namespace Sys2Proof

/-- The other level. -/
def Level.other : Level → Level
  | .low => .high
  | .high => .low

/-- The word of an entry, `{level, duration}` (20_memory.md R61). -/
def Sample.word (v : Sample) : BitVec 33 := v.level.bit ++ v.duration

/-- `x[k] <- ((x[k] << 1) | b) & 0xFF` (42_protocol_decoder.md R190 step 4, R196). -/
def Payload.shiftIn (p : Payload) (k : Nat) (b : Bool) : Payload :=
  match k with
  | 0 => { p with b0 := (p.b0 <<< 1) ||| (if b then 1 else 0) }
  | 1 => { p with b1 := (p.b1 <<< 1) ||| (if b then 1 else 0) }
  | 2 => { p with b2 := (p.b2 <<< 1) ||| (if b then 1 else 0) }
  | 3 => { p with b3 := (p.b3 <<< 1) ||| (if b then 1 else 0) }
  | 4 => { p with b4 := (p.b4 <<< 1) ||| (if b then 1 else 0) }
  | _ + 5 => p

/-- The cleared payload with which step 4 starts. -/
def Payload.zero : Payload := ⟨0, 0, 0, 0, 0⟩

namespace Machine

/-- `now -_32 since`, subtraction modulo `2^32` (00_scope.md R9; 40_capture_buffer.md R125). -/
def elapsed (now since : Micros) : Micros := now - since

/-- The level EDGE stores (40_capture_buffer.md R124). The rules reach step 4 only with `last_level` set; while it is
`unset` its value bit reads as 0 (10_state.md R22, log 16). -/
def storedLevel (sense : LevelSense) (lastLevel : Option Level) (level : Level) : Level :=
  match sense with
  | .after => level
  | .before => lastLevel.getD .low

/-- The architectural value of `count`, an integer (10_state.md R21). -/
def Cursor.toInt : Cursor → Int
  | .waiting => -1
  | .stored n => n

/-- How many samples are stored: `count`, or none while it is -1. -/
def Cursor.samples : Cursor → Nat
  | .waiting => 0
  | .stored n => n

/-- The 3-bit encoding of `seq_state` (10_state.md R30). -/
def SeqState.code : SeqState → BitVec 3
  | .idle => 0
  | .lowHold => 1
  | .settle => 2
  | .observe => 3
  | .done => 4
  | .failed => 5

/-- The 3-bit encoding of `dec_state` (10_state.md R35). -/
def DecState.code : DecState → BitVec 3
  | .idle => 0
  | .scan => 1
  | .ack => 2
  | .bits => 3
  | .sum => 4
  | .done => 5

/-- The failure codes (60_exceptions.md R260). -/
def Err.code : Err → BitVec 3
  | .none => 0
  | .hardwareAcquisitionFailure => 1
  | .insufficientData => 2
  | .noAcknowledgement => 3
  | .malformedAcknowledgement => 4
  | .checksumMismatch => 5
  | .allZeroPayload => 6

/-- `res_kind`: 0 = A, 1 = B (10_state.md R41). -/
def Kind.bit : Kind → BitVec 1
  | .a => 0
  | .b => 1

/-- `ACCEPTED` (30_encoding.md R101). -/
def acceptedWord : BitVec 2 := 0

/-- `REJECTED_BUSY` (30_encoding.md R101). -/
def rejectedBusyWord : BitVec 2 := 1

/-- `REJECTED_INVALID` (30_encoding.md R101). -/
def rejectedInvalidWord : BitVec 2 := 2

/-- The RDCNT response: `count` in 9-bit two's complement (30_encoding.md R102). -/
def countWord (c : Cursor) : BitVec 9 := BitVec.ofInt 9 c.toInt

/-- Bits 32:0 of the RDRES response while `res_valid` is 1: `{res_kind, res_hum, res_temp}` (30_encoding.md R104). -/
def Reading.bits (r : Reading) : BitVec 33 := r.kind.bit ++ r.hum ++ r.temp

/-- The RDRES response from its fields, `low` its bits 32:0 (30_encoding.md R104). -/
def resultWord (seq : SeqState) (done : Bool) (err : Err) (valid : Bool) (low : BitVec 33) : BitVec 41 :=
  seq.code ++ BitVec.ofBool done ++ err.code ++ BitVec.ofBool valid ++ low

/-- The humidity of a payload in tenths of a percent (42_protocol_decoder.md R201). -/
def humidityOf (kind : Kind) (p : Payload) : Nat :=
  match kind with
  | .a => 10 * p.b0.toNat
  | .b => (p.b0 ++ p.b1).toNat

/-- The temperature of a payload in tenths of a degree: kind A unsigned, kind B sign and magnitude
(42_protocol_decoder.md R202). -/
def temperatureOf (kind : Kind) (p : Payload) : Int :=
  match kind with
  | .a => 10 * p.b2.toNat
  | .b =>
    let mag : Int := ((p.b2 &&& 0x7F) ++ p.b3).toNat
    if p.b2 &&& 0x80 ≠ 0 then -mag else mag

end Machine

end Sys2Proof
end

