-- ==== Sys2Proof/Machine/Flags.lean ====
section
/-! DEFINITION. The conditions of the CORE. It has no condition codes (10_state.md R46): its one-bit status flags are
fields of State, and this file holds the tests its rules make on registers, samples and payloads. -/

namespace Sys2Proof.Machine

/-- The running states `LOW_HOLD`, `SETTLE`, `OBSERVE`; the others are resting (10_state.md R30). -/
def SeqState.running : SeqState → Bool
  | .lowHold | .settle | .observe => true
  | .idle | .done | .failed => false

/-- `dec_state == D_DONE`, bit 37 of the RDRES response (30_encoding.md R104). -/
def DecState.isDone (d : DecState) : Bool := decide (d = .done)

/-- `res_valid` (10_state.md R40). -/
def State.resValid (s : State) : Bool := s.reading.isSome

/-- The buffer is truncated: `count == CAPACITY` (10_state.md R46). -/
def State.truncated (s : State) : Bool := decide (s.count = .stored s.cfg.capacity)

/-- The duplicate test of EDGE step 2: `last_level != unset and level == last_level` (40_capture_buffer.md R123). -/
def isDuplicate (lastLevel : Option Level) (level : Level) : Bool := decide (lastLevel = some level)

/-- The scan test of step 2, `duration >= T_ACK` (42_protocol_decoder.md R193). -/
def isLong (tAck : Nat) (v : Sample) : Bool := decide (tAck ≤ v.duration.toNat)

/-- The test on an acknowledgement half, `duration > T_HALF` (42_protocol_decoder.md R194). -/
def isHalf (tHalf : Nat) (v : Sample) : Bool := decide (tHalf < v.duration.toNat)

/-- The bit a high sample encodes: 1 if `duration >= T_BIT` (42_protocol_decoder.md R195). -/
def bitOf (tBit : Nat) (v : Sample) : Bool := decide (tBit ≤ v.duration.toNat)

/-- The checksum test of step 5 (42_protocol_decoder.md R198). -/
def checksumMatches (p : Payload) : Bool :=
  decide ((p.b0.toNat + p.b1.toNat + p.b2.toNat + p.b3.toNat) % 256 = p.b4.toNat)

/-- The all-zero test of step 5 (42_protocol_decoder.md R199). -/
def allZero (p : Payload) : Bool := decide (p.b0 = 0 ∧ p.b1 = 0 ∧ p.b2 = 0 ∧ p.b3 = 0)

/-- Kind inference, step 6 (42_protocol_decoder.md R200). -/
def kindOf (p : Payload) : Kind := if p.b1 = 0 ∧ p.b3 = 0 then .a else .b

end Sys2Proof.Machine
end

