-- ==== Sys2Proof/Machine/Ops.lean ====
section
/-! DEFINITION. The operations the meanings share: the ports of the sample store, the response, the record of driver
calls, the buffer's cursor and gate, the failure entry, the sequencer's cleanup and the reset event. -/

namespace Sys2Proof.Machine

/-- `MemRead(i, 1)` on the entries written since reset (00_scope.md R10, 20_memory.md R62). -/
def memRead : Store → Nat → Option Sample
  | [], _ => none
  | (j, v) :: m, i => if i = j then some v else memRead m i

/-- `MemWrite(i, 1, v)`, keeping the indices strictly rising (00_scope.md R10, 20_memory.md R62). -/
def memWrite : Store → Nat → Sample → Store
  | [], i, v => [(i, v)]
  | (j, w) :: m, i, v =>
    if i < j then (i, v) :: (j, w) :: m
    else if i = j then (i, v) :: m
    else (j, w) :: memWrite m i v

/-- `sample[i]`: the entry written there, or, where none has been written since reset, a free value (log 11). The ONE
definition of what an unlisted index reads as. -/
def State.sampleAt (s : State) (i : Nat) : Sample := (memRead s.store i).getD (Config.unwrittenSample i)

/-- Returns a response to the issuer of the operation (30_encoding.md R100). -/
def respond (r : Response) (s : State) : State := { s with response := r }

/-- Makes a call on the Digital Pin Driver (60_exceptions.md R274 to R279). -/
def callDriver (c : DrvCall) (s : State) : State := { s with calls := s.calls ++ [c] }

/-- Counts a free value as drawn (log 10). -/
def drawn (s : State) : State := { s with draws := s.draws + 1 }

/-- `ARM()` (40_capture_buffer.md R121). -/
def armBuffer (s : State) : State := { s with count := .waiting, lastLevel := none }

/-- `ENABLE()` (40_capture_buffer.md R122). -/
def openGate (s : State) : State := { s with cbEn := true }

/-- `DISARM()` (40_capture_buffer.md R127). -/
def closeGate (s : State) : State := { s with cbEn := false }

/-- EDGE step 3, the arming edge (40_capture_buffer.md R123). -/
def acceptArmingEdge (level : Level) (now : Micros) (s : State) : State :=
  { s with lastTime := now, lastLevel := some level, count := .stored 0 }

/-- EDGE step 4, a stored sample at index `n` (40_capture_buffer.md R123 to R125). -/
def storeSample (n : Nat) (level : Level) (now : Micros) (s : State) : State :=
  { s with
    store := memWrite s.store n ⟨elapsed now s.lastTime, storedLevel s.cfg.levelSense s.lastLevel level⟩
    count := .stored (n + 1)
    lastTime := now
    lastLevel := some level }

/-- EDGE from step 2 on, the gate being open (40_capture_buffer.md R123). -/
def acceptEdge (level : Level) (now : Micros) (s : State) : State :=
  if isDuplicate s.lastLevel level then s
  else
    match s.count with
    | .waiting => acceptArmingEdge level now s
    | .stored n => if n < s.cfg.capacity then storeSample n level now s else s

/-- `raise Fail(code)`, the one failure entry (60_exceptions.md R268): `err <- code`, `res_valid <- 0`, and
`dec_state <- D_DONE` when DECODE raises it. It transfers control nowhere, and there is no return (R270). -/
def raiseFail (byDecode : Bool) (code : Err) (s : State) : State :=
  { s with
    err := code
    reading := none
    decState := if byDecode then .done else s.decState }

/-- The first half of Abort: `Drv.off_transition` and DISARM, if the gate is open (41_reset_sequencer.md R153). -/
def unregister (s : State) : State :=
  if s.cbEn then closeGate (callDriver (.offTransition s.seqPin) s) else s

/-- `Abort()` (41_reset_sequencer.md R153). -/
def abort (s : State) : State :=
  let s := callDriver (.release s.seqPin) (unregister s)
  raiseFail false .hardwareAcquisitionFailure { s with pinClaimed := false, pinOe := false, seqState := .failed }

/-- The reset event (70_reset_and_hazards.md R300): every register takes its value in the table of 10_state.md R47,
the unspecified ones a free value each (log 9); no driver call is made (R302). -/
def resetEvent (s : State) : State :=
  { s with
    count := .waiting
    lastLevel := none
    lastTime := Config.resetLastTime s.draws
    store := []
    cbEn := false
    seqState := .idle
    seqPin := Config.resetSeqPin s.draws
    seqT0 := Config.resetSeqT0 s.draws
    pinClaimed := false
    pinOe := false
    pinO := Config.resetPinO s.draws
    decState := .idle
    decIdx := Config.resetDecIdx s.draws
    decNbits := Config.resetDecNbits s.draws
    data := Config.resetData s.draws
    err := .none
    reading := none
    response := .none
    draws := s.draws + 1 }

end Sys2Proof.Machine
end

