-- ==== Sys2Proof/Machine/Buffer.lean ====
section
/-! DEFINITION. The Edge Capture Buffer operations: ARM, ENABLE, EDGE, DISARM, RDCNT, RDSMP (40_capture_buffer.md). -/

namespace Sys2Proof.Machine

/-- ARM (40_capture_buffer.md R121). -/
def execArm (s : State) : Host.Outcome State Fault Refusal := .next (respond .none (armBuffer s))

/-- ENABLE (40_capture_buffer.md R122). It makes no driver call. -/
def execEnable (s : State) : Host.Outcome State Fault Refusal := .next (respond .none (openGate s))

/-- EDGE (40_capture_buffer.md R123): step 0 is the gate, R25. -/
def execEdge (level : Level) (now : Micros) (s : State) : Host.Outcome State Fault Refusal :=
  .next (respond .none (if s.cbEn then acceptEdge level now s else s))

/-- DISARM (40_capture_buffer.md R127). It makes no driver call. -/
def execDisarm (s : State) : Host.Outcome State Fault Refusal := .next (respond .none (closeGate s))

/-- RDCNT (40_capture_buffer.md R130). -/
def execRdcnt (s : State) : Host.Outcome State Fault Refusal := .next (respond (.count (countWord s.count)) s)

/-- RDSMP (40_capture_buffer.md R131): refused at or above `CAPACITY`; a free value (log 12) at or above `count`. -/
def execRdsmp (idx : BitVec 8) (s : State) : Host.Outcome State Fault Refusal :=
  if s.cfg.capacity ≤ idx.toNat then .refused .noSuchEntry
  else if (idx.toNat : Int) < s.count.toInt then .next (respond (.sample (s.sampleAt idx.toNat).word) s)
  else .next (respond (.sample (Config.staleEntry s.draws)) (drawn s))

end Sys2Proof.Machine
end

