-- ==== Sys2Proof/Machine/Decoder.lean ====
section
/-! DEFINITION. The Protocol Decoder operations: DECODE, RDRES (42_protocol_decoder.md), and beside them the stepwise
form of the decoder (R210 to R215), which no operation runs (log 19). -/

namespace Sys2Proof.Machine

/-- Step 2: the first index from `i` on whose sample reaches `T_ACK`, `left` samples being left; `i + left` if none
does (42_protocol_decoder.md R193). -/
def scanFrom (tAck : Nat) (rd : Nat → Sample) : Nat → Nat → Nat
  | 0, i => i
  | left + 1, i => if isLong tAck (rd i) then i else scanFrom tAck rd left (i + 1)

/-- Step 3: the acknowledgement found at `i` is valid (42_protocol_decoder.md R194). -/
def ackValid (tHalf : Nat) (rd : Nat → Sample) (n i : Nat) : Bool :=
  decide (i + 3 < n) && decide ((rd i).level = .low) && isHalf tHalf (rd (i + 2)) && isHalf tHalf (rd (i + 3))

/-- What step 4 has recovered: the payload so far, the number of its bits, and the next sample index. -/
structure BitRun where
  data : Payload
  nbits : Nat
  idx : Nat
  deriving DecidableEq, Repr

/-- Step 4 on one sample: a high sample yields one bit, a low one none (42_protocol_decoder.md R195, R196). -/
def takeSample (tBit : Nat) (v : Sample) (r : BitRun) : BitRun :=
  match v.level with
  | .low => { r with idx := r.idx + 1 }
  | .high => { data := r.data.shiftIn (r.nbits / 8) (bitOf tBit v), nbits := r.nbits + 1, idx := r.idx + 1 }

/-- Step 4: the run of samples with `left` samples left; it stops at `PAYLOAD_BITS` bits (42_protocol_decoder.md R197). -/
def extractFrom (bits tBit : Nat) (rd : Nat → Sample) : Nat → BitRun → BitRun
  | 0, r => r
  | left + 1, r =>
    if r.nbits = bits then r else extractFrom bits tBit rd left (takeSample tBit (rd r.idx) r)

/-- Writes `dec_idx`, `dec_nbits` and `data[]` (10_state.md R36 to R38; log 20 on the widths). -/
def loadRun (r : BitRun) (s : State) : State :=
  { s with data := r.data, decNbits := BitVec.ofNat 6 r.nbits, decIdx := BitVec.ofNat 8 r.idx }

/-- Steps 6 and 7: the reading of a payload (42_protocol_decoder.md R200 to R202). -/
def readingOf (p : Payload) : Reading :=
  { kind := kindOf p
    hum := BitVec.ofNat 16 (humidityOf (kindOf p) p)
    temp := BitVec.ofInt 16 (temperatureOf (kindOf p) p) }

/-- Step 8: a valid reading (42_protocol_decoder.md R203). -/
def deliver (r : Reading) (s : State) : State := { s with reading := some r, err := .none, decState := .done }

/-- Steps 5 to 8 on the payload in `data[]`: checksum first, then the all-zero test (42_protocol_decoder.md R198,
R199). -/
def judge (s : State) : State :=
  if !checksumMatches s.data then raiseFail true .checksumMismatch s
  else if allZero s.data then raiseFail true .allZeroPayload s
  else deliver (readingOf s.data) s

/-- Steps 4 to 8, the acknowledgement being valid at `i` of `n` samples (42_protocol_decoder.md R195 to R203). -/
def decodePayload (n i : Nat) (s : State) : State :=
  let r := extractFrom s.cfg.payloadBits s.cfg.tBit s.sampleAt (n - (i + 4)) ⟨Payload.zero, 0, i + 4⟩
  let s := loadRun r s
  if r.nbits < s.cfg.payloadBits then raiseFail true .insufficientData s else judge s

/-- The atomic decoder, steps 1 to 8 (42_protocol_decoder.md R190). -/
def decodeBuffer (s : State) : State :=
  if s.count.toInt < s.cfg.minEdges then raiseFail true .insufficientData s
  else
    let n := s.count.samples
    let i := scanFrom s.cfg.tAck s.sampleAt n 0
    let s := { s with decIdx := BitVec.ofNat 8 i }
    if i = n then raiseFail true .noAcknowledgement s
    else if !ackValid s.cfg.tHalf s.sampleAt n i then raiseFail true .malformedAcknowledgement s
    else decodePayload n i s

/-- DECODE (42_protocol_decoder.md R190): refused while `cb_en` is 1. -/
def execDecode (s : State) : Host.Outcome State Fault Refusal :=
  if s.cbEn then .refused .decodeWhileEnabled else .next (respond .none (decodeBuffer s))

/-- RDRES (42_protocol_decoder.md R205): bits 32:0 are a free value (log 13) while `res_valid` is 0. -/
def execRdres (s : State) : Host.Outcome State Fault Refusal :=
  match s.reading with
  | some r => .next (respond (.result (resultWord s.seqState s.decState.isDone s.err true r.bits)) s)
  | none =>
    .next (respond (.result (resultWord s.seqState s.decState.isDone s.err false (Config.noReadingBits s.draws)))
      (drawn s))

/-- Entry of the stepwise decoder (42_protocol_decoder.md R211). -/
def decoderEntry (s : State) : State :=
  if s.count.toInt < s.cfg.minEdges then raiseFail true .insufficientData s
  else { s with decIdx := 0, decState := .scan }

/-- One step in `D_SCAN` (42_protocol_decoder.md R212). -/
def decoderScan (s : State) : State :=
  if s.decIdx.toNat = s.count.samples then raiseFail true .noAcknowledgement s
  else if isLong s.cfg.tAck (s.sampleAt s.decIdx.toNat) then { s with decState := .ack }
  else { s with decIdx := s.decIdx + 1 }

/-- One step in `D_ACK` (42_protocol_decoder.md R213). -/
def decoderAck (s : State) : State :=
  if !ackValid s.cfg.tHalf s.sampleAt s.count.samples s.decIdx.toNat then raiseFail true .malformedAcknowledgement s
  else { s with data := Payload.zero, decNbits := 0, decIdx := s.decIdx + 4, decState := .bits }

/-- One step in `D_BITS` (42_protocol_decoder.md R214). -/
def decoderBits (s : State) : State :=
  if s.decNbits.toNat = s.cfg.payloadBits then { s with decState := .sum }
  else if s.decIdx.toNat = s.count.samples then raiseFail true .insufficientData s
  else loadRun (takeSample s.cfg.tBit (s.sampleAt s.decIdx.toNat) ⟨s.data, s.decNbits.toNat, s.decIdx.toNat⟩) s

/-- One step of the stepwise decoder; `D_SUM` is R215, and it rests in `D_IDLE` and `D_DONE`
(42_protocol_decoder.md R210). -/
def decoderStep (s : State) : State :=
  match s.decState with
  | .scan => decoderScan s
  | .ack => decoderAck s
  | .bits => decoderBits s
  | .sum => judge s
  | .idle | .done => s

/-- `k` steps of the stepwise decoder. -/
def decoderSteps : Nat → State → State
  | 0, s => s
  | k + 1, s => decoderSteps k (decoderStep s)

end Sys2Proof.Machine
end

