-- ==== Sys2Proof/Machine/Sequencer.lean ====
section
/-! DEFINITION. The Reset Sequencer operations: START, TICK (41_reset_sequencer.md). -/

namespace Sys2Proof.Machine

/-- The writes of an accepted START before its first driver call (41_reset_sequencer.md R152). -/
def openSession (pin : PinNum) (s : State) : State :=
  { s with seqPin := pin, err := .none, reading := none, decState := .idle }

/-- START from `Drv.set_direction(pin, out)` on (41_reset_sequencer.md R152). -/
def driveLow (pin : PinNum) (now : Micros) (s : State) : State :=
  let s := callDriver (.setDirection pin .output s.answers.setDirection) s
  match s.answers.setDirection with
  | .fail => abort s
  | .ok =>
    { callDriver (.write pin .low) { s with pinOe := true } with
      pinO := .low, seqT0 := now, seqState := .lowHold }

/-- START after a successful `Drv.claim`: arm, register the callback, enable, drive low (41_reset_sequencer.md R152). -/
def registerCallback (pin : PinNum) (now : Micros) (s : State) : State :=
  let s := armBuffer { s with pinClaimed := true }
  let s := callDriver (.onTransition pin s.answers.onTransition) s
  match s.answers.onTransition with
  | .fail => abort s
  | .ok => driveLow pin now (openGate s)

/-- START of an admissible pin in a resting state (41_reset_sequencer.md R152). A failing claim has nothing to undo. -/
def startSession (pin : PinNum) (now : Micros) (s : State) : State :=
  let s := callDriver (.claim pin s.answers.claim) (openSession pin s)
  match s.answers.claim with
  | .fail => raiseFail false .hardwareAcquisitionFailure { s with seqState := .failed }
  | .ok => registerCallback pin now s

/-- START (41_reset_sequencer.md R152). Its response is `ACCEPTED` also where the session it started has failed. -/
def execStart (pin : PinNum) (now : Micros) (s : State) : Host.Outcome State Fault Refusal :=
  if s.seqState.running then .next (respond (.start rejectedBusyWord) s)
  else if s.cfg.pinMax < pin.toNat then .next (respond (.start rejectedInvalidWord) s)
  else .next (respond (.start acceptedWord) (startSession pin now s))

/-- TICK at the end of `LOW_HOLD` (41_reset_sequencer.md R156). -/
def releaseHigh (now : Micros) (s : State) : State :=
  { callDriver (.write s.seqPin .high) s with pinO := .high, seqT0 := now, seqState := .settle }

/-- TICK at the end of `SETTLE` (41_reset_sequencer.md R157). -/
def handOver (now : Micros) (s : State) : State :=
  let s := callDriver (.setDirection s.seqPin .input s.answers.setDirection) s
  match s.answers.setDirection with
  | .fail => abort s
  | .ok => { s with pinOe := false, seqT0 := now, seqState := .observe }

/-- TICK at the end of `OBSERVE` (41_reset_sequencer.md R158). -/
def endCapture (s : State) : State :=
  let s := closeGate (callDriver (.offTransition s.seqPin) s)
  { callDriver (.release s.seqPin) s with pinClaimed := false, seqState := .done }

/-- The one transition a TICK can make (41_reset_sequencer.md R155); none in a resting state (R159). -/
def advance (now : Micros) (s : State) : State :=
  match s.seqState with
  | .lowHold => if s.cfg.tLow ≤ (elapsed now s.seqT0).toNat then releaseHigh now s else s
  | .settle => if s.cfg.tSettle ≤ (elapsed now s.seqT0).toNat then handOver now s else s
  | .observe => if s.cfg.tWindow ≤ (elapsed now s.seqT0).toNat then endCapture s else s
  | .idle | .done | .failed => s

/-- TICK (41_reset_sequencer.md R155). -/
def execTick (now : Micros) (s : State) : Host.Outcome State Fault Refusal := .next (respond .none (advance now s))

end Sys2Proof.Machine
end

