-- ==== Sys2Proof/Machine/Dispatch.lean ====
section
/-! DEFINITION. One arm per operation of the opcode map (30_encoding.md R97). -/

namespace Sys2Proof.Machine

def exec (i : Instr) (s : State) : Host.Outcome State Fault Refusal :=
  match i with
  | .arm => Sys2Proof.Machine.execArm s
  | .enable => Sys2Proof.Machine.execEnable s
  | .edge level now => Sys2Proof.Machine.execEdge level now s
  | .disarm => Sys2Proof.Machine.execDisarm s
  | .rdcnt => Sys2Proof.Machine.execRdcnt s
  | .rdsmp idx => Sys2Proof.Machine.execRdsmp idx s
  | .start pin now => Sys2Proof.Machine.execStart pin now s
  | .tick now => Sys2Proof.Machine.execTick now s
  | .decode => Sys2Proof.Machine.execDecode s
  | .rdres => Sys2Proof.Machine.execRdres s

end Sys2Proof.Machine
end

