-- ==== Sys2Proof/Machine/Fetch.lean ====
section
/-! DEFINITION. Taking the next presented event: which operation a step runs, in which state, or why it is refused. The
CORE fetches no instructions (20_memory.md R73); operations are presented to it (30_encoding.md R90). -/

namespace Sys2Proof.Machine

/-- What a step does. -/
inductive Fetched where
  /-- Nothing is pending: the state does not change (log 4). -/
  | idle
  /-- The reset event, to take place in the state given. -/
  | reset (s : State)
  /-- An operation, to be run in the state given. -/
  | run (i : Instr) (s : State)
  /-- A word or an issuer that is given no step. -/
  | refuse (r : Refusal)
  deriving DecidableEq, Repr

/-- One issued operation: the word must be an operation (30_encoding.md R98), and its issuer the context that operation
belongs to (60_exceptions.md R282). `s` is the state with the event taken off `pending`. -/
def receive (o : Issued) (s : State) : Fetched :=
  match decode o.word with
  | .error why => .refuse (.reservedEncoding why)
  | .ok i => if o.issuer = i.context then .run i { s with answers := o.answers } else .refuse (.wrongContext o.issuer)

/-- The first pending event, taken off `pending`. -/
def fetch (s : State) : Fetched :=
  match s.pending with
  | [] => .idle
  | .reset :: rest => .reset { s with pending := rest }
  | .op o :: rest => receive o { s with pending := rest }

/-- The context that issues a word: its operation's own, and the controlling one for a reserved word. -/
def issuerOf (w : OpWord) : Context :=
  match decode w with
  | .ok i => i.context
  | .error _ => .controlling

/-- A word presented next, issued by its own context, with the environment's answers as they stand. -/
def present (w : OpWord) (s : State) : State :=
  { s with pending := .op { issuer := issuerOf w, word := w, answers := s.answers } :: s.pending }

end Sys2Proof.Machine
end

