-- ==== Sys2Proof/Machine/Step.lean ====
section
/-! DEFINITION. One step of the CORE: one atomic operation, or the reset event (00_scope.md R8, 20_memory.md R68). -/

namespace Sys2Proof.Machine

/-- One step: the next pending event happens. With nothing pending the state does not change (log 4). -/
def step (s : State) : Host.Outcome State Fault Refusal :=
  match fetch s with
  | .idle => .next s
  | .reset t => .next (resetEvent t)
  | .run i t => exec i t
  | .refuse r => .refused r

/-- `s` with the operation whose bits are `w` presented next; bits at and above `nbits` are 0 (log 3). -/
def State.withFetchWord (s : State) (nbits w : Nat) : State := present (BitVec.ofNat 48 (w % 2 ^ nbits)) s

end Sys2Proof.Machine
end

