-- ==== Sys2Proof/WellFormed.lean ====
section
/-! DEFINITION. The checks. Every term of `Instr` is encodable: each operand's type has exactly the width of its
field (30_encoding.md R96), so the syntax itself needs no check. What is left to check is a configuration
(00_scope.md R6) and an operand that is encodable but not admissible in a configuration (30_encoding.md R99). -/

namespace Sys2Proof

/-- A time threshold fits in `TIME_BITS` bits (00_scope.md R6). -/
abbrev Config.FitsClock (c : Config) (t : Nat) : Prop := t < 2 ^ c.timeBits

/-- The constraints 00_scope.md R6 puts on a configuration: `1 <= CAPACITY <= 255`, `PAYLOAD_BITS = 40`,
`PIN_MAX < 2^PIN_BITS`, and every time threshold fits in `TIME_BITS` bits. The rules fix the widths themselves: clock
readings are `u32` with subtraction modulo `2^32`, pin numbers `u8` (00_scope.md R9, 30_encoding.md R96,
40_capture_buffer.md R125), so no other `TIME_BITS` and `PIN_BITS` are admitted (DEDUCED, log 2). -/
abbrev Config.WellFormed (c : Config) : Prop :=
  (1 ≤ c.capacity ∧ c.capacity ≤ 255) ∧
  (c.payloadBits = 40 ∧ c.timeBits = 32 ∧ c.pinBits = 8) ∧
  c.pinMax < 2 ^ c.pinBits ∧
  c.FitsClock c.tAck ∧ c.FitsClock c.tHalf ∧ c.FitsClock c.tBit ∧
  c.FitsClock c.tLow ∧ c.FitsClock c.tSettle ∧ c.FitsClock c.tWindow

/-- An operation whose operands are admissible (30_encoding.md R99): `pin <= PIN_MAX` in START, `idx < CAPACITY` in
RDSMP. An inadmissible START is answered, an inadmissible RDSMP refused, by their own meanings. -/
abbrev Instr.Admissible (c : Config) : Instr → Prop
  | .start pin _ => pin.toNat ≤ c.pinMax
  | .rdsmp idx => idx.toNat < c.capacity
  | .arm | .enable | .edge _ _ | .disarm | .rdcnt | .tick _ | .decode | .rdres => True

end Sys2Proof
end

