-- ==== Sys2Proof/Safety.lean ====
section
/-! DEFINITION. What counts as a state of the CORE in good order, and the vocabulary the claims are written in: the
samples a decode looks at, described without the decoder's own functions, the balance of driver calls, and the
round-trip construction of 95_test_vectors.md section 3. -/

namespace Sys2Proof.Machine

/-- The states the rules can leave: what every step keeps, and what rules out the states no run reaches. -/
structure Inv (s : State) : Prop where
  /-- The configuration meets 00_scope.md R6. -/
  config : s.cfg.WellFormed
  /-- The store is in its canonical form and within `CAPACITY` (20_memory.md R60). -/
  memory : Memory.wf s.cfg.capacity s.store
  /-- Every index below `count` holds a completed sample (20_memory.md R69). -/
  filled : ∀ i < s.count.samples, (memRead s.store i).isSome = true
  /-- `count` is at most `CAPACITY` (10_state.md R21). -/
  count_le : s.count.samples ≤ s.cfg.capacity
  /-- `last_level` is unset exactly while no arming edge has been seen (40_capture_buffer.md R124). -/
  filter : s.lastLevel = none ↔ s.count = .waiting
  /-- The pin is claimed exactly in the running states (10_state.md R33, 41_reset_sequencer.md R160). -/
  claimed : s.pinClaimed = s.seqState.running
  /-- The pin is an output exactly in `LOW_HOLD` and `SETTLE` (10_state.md R30). -/
  driven : s.pinOe = true ↔ s.seqState = .lowHold ∨ s.seqState = .settle
  /-- In `LOW_HOLD` the pin is driven low (10_state.md R30). -/
  low : s.seqState = .lowHold → s.pinO = .low
  /-- In `SETTLE` the pin is driven high (10_state.md R30). -/
  high : s.seqState = .settle → s.pinO = .high
  /-- A running session's pin is admissible (10_state.md R20). -/
  admissible : s.seqState.running = true → s.seqPin.toNat ≤ s.cfg.pinMax
  /-- Between operations only `D_IDLE` and `D_DONE` are observed (10_state.md R35). -/
  atomic : s.decState = .idle ∨ s.decState = .done
  /-- A valid reading goes with `err = 0` and a finished decode (10_state.md R40, 42_protocol_decoder.md R205). -/
  valid : s.resValid = true → s.err = .none ∧ s.decState = .done
  /-- A finished decode without a reading shows a failure (42_protocol_decoder.md R205). -/
  failure : s.decState = .done → s.resValid = false → s.err ≠ .none

/-- The stored levels alternate, and the newest sample agrees with `last_level` as `LEVEL_SENSE` says
(40_capture_buffer.md R126 f). -/
structure LevelsAlternate (s : State) : Prop where
  alternate : ∀ i, i + 1 < s.count.samples → (s.sampleAt i).level ≠ (s.sampleAt (i + 1)).level
  newest : ∀ n p, s.count = .stored (n + 1) → s.lastLevel = some p →
    (s.sampleAt n).level = (match s.cfg.levelSense with | .after => p | .before => p.other)

/-- The sum of the durations of the first `n` samples, modulo `2^32` (40_capture_buffer.md R126 g). -/
def durationSum (s : State) : Nat → Micros
  | 0 => 0
  | n + 1 => durationSum s n + (s.sampleAt n).duration

/-- Two states agree on what the decoder may look at: the gate, `count`, the parameters and the samples below `count`
(42_protocol_decoder.md R192, R204). -/
structure SameBuffer (s t : State) : Prop where
  gate : s.cbEn = t.cbEn
  count : s.count = t.count
  cfg : s.cfg = t.cfg
  samples : ∀ i < s.count.samples, s.sampleAt i = t.sampleAt i

/-- The buffer has an acknowledgement at index `i` of `n` samples: `i` is the first sample of at least `T_ACK`, and it
passes the validation (42_protocol_decoder.md R191, R193, R194). -/
structure Acknowledged (s : State) (i n : Nat) : Prop where
  count : s.count = .stored n
  enough : s.cfg.minEdges ≤ n
  room : i + 3 < n
  first : ∀ k < i, (s.sampleAt k).duration.toNat < s.cfg.tAck
  long : s.cfg.tAck ≤ (s.sampleAt i).duration.toNat
  low : (s.sampleAt i).level = .low
  half1 : s.cfg.tHalf < (s.sampleAt (i + 2)).duration.toNat
  half2 : s.cfg.tHalf < (s.sampleAt (i + 3)).duration.toNat

/-- The high samples at indices `start .. stop-1`, in order (42_protocol_decoder.md R195). -/
def highIndices (s : State) (start stop : Nat) : List Nat :=
  (List.range stop).filter fun j => decide (start ≤ j) && decide ((s.sampleAt j).level = .high)

/-- The bits they encode, in order of arrival (42_protocol_decoder.md R195). -/
def arrivedBits (s : State) (start stop : Nat) : List Bool :=
  (highIndices s start stop).map fun j => decide (s.cfg.tBit ≤ (s.sampleAt j).duration.toNat)

/-- Bit `n` of a payload in order of arrival: bit `7 - (n mod 8)` of `data[n div 8]` (42_protocol_decoder.md R196). -/
def payloadBit (p : Payload) (n : Nat) : Bool :=
  match n / 8 with
  | 0 => p.b0.getLsbD (7 - n % 8)
  | 1 => p.b1.getLsbD (7 - n % 8)
  | 2 => p.b2.getLsbD (7 - n % 8)
  | 3 => p.b3.getLsbD (7 - n % 8)
  | 4 => p.b4.getLsbD (7 - n % 8)
  | _ => false

/-- `data[k]` of a payload (10_state.md R38). -/
def payloadByte (p : Payload) (k : Nat) : BitVec 8 :=
  match k with
  | 0 => p.b0
  | 1 => p.b1
  | 2 => p.b2
  | 3 => p.b3
  | 4 => p.b4
  | _ => 0

/-- The number that bits make, the first of them most significant (42_protocol_decoder.md R196). -/
def bitsNumber : List Bool → Nat
  | [] => 0
  | b :: bs => (if b then 2 ^ bs.length else 0) + bitsNumber bs

/-- `p` is the payload that the first 40 bits from index `start` on form. -/
structure IsPayload (s : State) (start n : Nat) (p : Payload) : Prop where
  full : 40 ≤ (arrivedBits s start n).length
  bits : ∀ k < 40, (arrivedBits s start n)[k]? = some (payloadBit p k)

/-- `j` is one more than the index of the sample that supplied the 40th bit (42_protocol_decoder.md R203). -/
structure AfterFortieth (s : State) (start n j : Nat) : Prop where
  le : j ≤ n
  forty : (arrivedBits s start j).length = 40
  supplied : ∃ k, j = k + 1 ∧ start ≤ k ∧ (s.sampleAt k).level = .high

/-- Operations run one after the other, stopping at the first that is refused. -/
def execAll : List Instr → State → Host.Outcome State Fault Refusal
  | [], s => .next s
  | i :: is, s =>
    match exec i s with
    | .next t => execAll is t
    | .fault f => .fault f
    | .refused r => .refused r

/-- Microseconds from `since` to `now` on the wrapping clock, as a number (00_scope.md R9 `-_32`). -/
def microsSince (now since : Micros) : Nat := (now.toNat + 2 ^ 32 - since.toNat) % 2 ^ 32

/-- Successful claims less releases in a record of driver calls (41_reset_sequencer.md R162). -/
def claimsHeld : List DrvCall → Int
  | [] => 0
  | .claim _ .ok :: cs => 1 + claimsHeld cs
  | .release _ :: cs => claimsHeld cs - 1
  | .claim _ .fail :: cs | .setDirection _ _ _ :: cs | .write _ _ :: cs | .onTransition _ _ :: cs
  | .offTransition _ :: cs => claimsHeld cs

/-- The payload of a reading (95_test_vectors.md section 3 step 1). -/
def payloadOf (r : Reading) : Payload :=
  let mag := r.temp.toInt.natAbs
  let b0 : BitVec 8 := match r.kind with | .a => BitVec.ofNat 8 (r.hum.toNat / 10) | .b => BitVec.ofNat 8 (r.hum.toNat / 256)
  let b1 : BitVec 8 := match r.kind with | .a => 0 | .b => BitVec.ofNat 8 (r.hum.toNat % 256)
  let b2 : BitVec 8 :=
    match r.kind with
    | .a => BitVec.ofNat 8 (mag / 10)
    | .b => BitVec.ofNat 8 (mag / 256 + if r.temp.toInt < 0 then 128 else 0)
  let b3 : BitVec 8 := match r.kind with | .a => 0 | .b => BitVec.ofNat 8 (mag % 256)
  ⟨b0, b1, b2, b3, b0 + b1 + b2 + b3⟩

/-- The readings that decode back to themselves (42_protocol_decoder.md R209 e): kind A with whole values in 0 to 255,
not both zero; kind B with a magnitude of at most 32767 and an encoding whose `data[1]` and `data[3]` are not both 0. -/
def RoundTrips (r : Reading) : Prop :=
  match r.kind with
  | .a => ∃ h t : Nat, h ≤ 255 ∧ t ≤ 255 ∧ (h ≠ 0 ∨ t ≠ 0) ∧ r.hum.toNat = 10 * h ∧ r.temp.toInt = 10 * t
  | .b => r.temp.toInt ≠ -32768 ∧ ¬(r.hum.toNat % 256 = 0 ∧ r.temp.toInt.natAbs % 256 = 0)

/-- Sample `k` of the standard buffer of a payload: `2000/0 30/1 80/0 80/1`, then per bit `50/0` and `70/1` or `26/1`,
then `50/0`; 85 samples (95_test_vectors.md section 3 step 2). -/
def standardSample (p : Payload) (k : Nat) : Sample :=
  if k = 0 then ⟨2000, .low⟩
  else if k = 1 then ⟨30, .high⟩
  else if k = 2 then ⟨80, .low⟩
  else if k = 3 then ⟨80, .high⟩
  else if k % 2 = 0 then ⟨50, .low⟩
  else if payloadBit p ((k - 4) / 2) then ⟨70, .high⟩
  else ⟨26, .high⟩

/-- The opcode map's match and mask of each row (30_encoding.md R97). -/
def opcodeRows : List (OpWord × OpWord) :=
  [(0x100000000000, 0xFFFFFFFFFFFF), (0x200000000000, 0xFFFFFFFFFFFF), (0x300000000000, 0xFFFE00000000),
   (0x400000000000, 0xFFFFFFFFFFFF), (0x500000000000, 0xFFFFFFFFFFFF), (0x600000000000, 0xFFFFFFFFFF00),
   (0x700000000000, 0xFF0000000000), (0x800000000000, 0xFFFF00000000), (0x900000000000, 0xFFFFFFFFFFFF),
   (0xA00000000000, 0xFFFFFFFFFFFF)]

end Sys2Proof.Machine
end

