-- ==== Sys2Proof/Certificates/Slice0/Obligations.lean ====
section
/-! DEFINITION. The statements for the provers. Each docstring names the rule of spec/ it formalises; OBLIGATIONS.json
lists them. An equation `exec i s = .next { s with … }` states the frame too: every field it does not name is unchanged.
In these equations `response`, `calls`, `answers`, `pending`, `draws` and `cfg` are the model's own fields (logs 1, 3, 5, 6,
7, 10): `response := .none` says that an operation returns nothing, `calls` lists its driver calls in order, and a change of
`draws` says that a free value was drawn. -/

section

open Sys2Proof Sys2Proof.Machine

/-! ## Encoding -/

/-- Decoding an encoded operation gives it back, at every value of every operand (30_encoding.md R91 to R97). -/
def Obligations.DecodeOfEncode : Prop := ∀ i : Instr, decode (encode i) = .ok i

/-- A word that decodes is the encoding of its operation, so no bit of it is ignored (30_encoding.md R98). -/
def Obligations.EncodeOfDecode : Prop := ∀ (w : OpWord) (i : Instr), decode w = .ok i → encode i = w

/-- The words that decode are exactly those that match a row of the opcode map (30_encoding.md R97), and a word that
matches a row decodes to that row's operation with its operands in the bits of its format (R91 to R96), at every value of
every operand. -/
def Obligations.DecodeAcceptsOpcodeRows : Prop :=
  ∀ w : OpWord,
    ((∃ i, decode w = .ok i) ↔ ∃ r ∈ opcodeRows, w &&& r.2 = r.1) ∧
    (w &&& 0xFFFFFFFFFFFF = 0x100000000000 → decode w = .ok .arm) ∧
    (w &&& 0xFFFFFFFFFFFF = 0x200000000000 → decode w = .ok .enable) ∧
    (w &&& 0xFFFE00000000 = 0x300000000000 →
      decode w = .ok (.edge (if w.getLsbD 32 then .high else .low) (w.extractLsb' 0 32))) ∧
    (w &&& 0xFFFFFFFFFFFF = 0x400000000000 → decode w = .ok .disarm) ∧
    (w &&& 0xFFFFFFFFFFFF = 0x500000000000 → decode w = .ok .rdcnt) ∧
    (w &&& 0xFFFFFFFFFF00 = 0x600000000000 → decode w = .ok (.rdsmp (w.extractLsb' 0 8))) ∧
    (w &&& 0xFF0000000000 = 0x700000000000 → decode w = .ok (.start (w.extractLsb' 32 8) (w.extractLsb' 0 32))) ∧
    (w &&& 0xFFFF00000000 = 0x800000000000 → decode w = .ok (.tick (w.extractLsb' 0 32))) ∧
    (w &&& 0xFFFFFFFFFFFF = 0x900000000000 → decode w = .ok .decode) ∧
    (w &&& 0xFFFFFFFFFFFF = 0xA00000000000 → decode w = .ok .rdres)

/-- The words of 95_test_vectors.md section 2.1 decode to the operations named there. -/
def Obligations.SpecWordsDecode : Prop :=
  decode 0x100000000000 = .ok .arm ∧ decode 0x200000000000 = .ok .enable ∧
  decode 0x300100000BB8 = .ok (.edge .high 3000) ∧ decode 0x3000FFFFFFFF = .ok (.edge .low 0xFFFFFFFF) ∧
  decode 0x400000000000 = .ok .disarm ∧ decode 0x500000000000 = .ok .rdcnt ∧
  decode 0x6000000000C7 = .ok (.rdsmp 199) ∧ decode 0x7004000003E8 = .ok (.start 4 1000) ∧
  decode 0x80000001926C = .ok (.tick 103020) ∧ decode 0x900000000000 = .ok .decode ∧
  decode 0xA00000000000 = .ok .rdres

/-! ## The step -/

/-- An issued word that decodes to an operation of its issuer's context runs as that operation, in the state with the
event taken off `pending` and the environment's answers to it in place. -/
def Obligations.StepRunsDecodedOperation : Prop :=
  ∀ (s : State) (o : Issued) (rest : List Event) (i : Instr),
    s.pending = .op o :: rest → decode o.word = .ok i → o.issuer = i.context →
      step s = exec i { s with pending := rest, answers := o.answers }

/-- EDGE from the controlling context, and any other operation from the callback, is refused (60_exceptions.md R282). -/
def Obligations.WrongContextRefused : Prop :=
  ∀ (s : State) (o : Issued) (rest : List Event) (i : Instr),
    s.pending = .op o :: rest → decode o.word = .ok i →
    ((∃ l t, i = .edge l t) ∧ o.issuer = .controlling ∨ (∀ l t, i ≠ .edge l t) ∧ o.issuer = .callback) →
      step s = .refused (.wrongContext o.issuer)

/-- A word that matches no row of the opcode map is refused (30_encoding.md R98). -/
def Obligations.ReservedWordRefused : Prop :=
  ∀ (s : State) (o : Issued) (rest : List Event),
    s.pending = .op o :: rest → (∀ r ∈ opcodeRows, o.word &&& r.2 ≠ r.1) →
      ∃ why, step s = .refused (.reservedEncoding why)

/-- MODEL'S CHOICE (log 4): with nothing pending a step changes nothing. -/
def Obligations.IdleStepChangesNothing : Prop := ∀ s : State, s.pending = [] → step s = .next s

/-- The reset event writes every register the table of 10_state.md R47 gives a value, makes no driver call, and leaves
the parameters and the other pending events alone (70_reset_and_hazards.md R300, R302). -/
def Obligations.ResetEventWritesTable : Prop :=
  ∀ (s : State) (rest : List Event), s.pending = .reset :: rest →
    ∃ t, step s = .next t ∧
      t.count = .waiting ∧ t.lastLevel = none ∧ t.cbEn = false ∧ t.seqState = .idle ∧ t.pinClaimed = false ∧
      t.pinOe = false ∧ t.decState = .idle ∧ t.err = .none ∧ t.resValid = false ∧
      t.calls = s.calls ∧ t.cfg = s.cfg ∧ t.pending = rest

/-- After reset RDCNT reports -1, RDRES reports `seq = IDLE, done = 0, err = 0, valid = 0`, EDGE has no effect, and
DECODE is admitted and yields InsufficientData (70_reset_and_hazards.md R301). -/
def Obligations.ResetStateIsIdleAndMasked : Prop :=
  exec .rdcnt State.reset = .next { State.reset with response := .count 0x1FF } ∧
  (∃ w : BitVec 41, exec .rdres State.reset = .next { State.reset with response := .result w, draws := 1 } ∧
    w.extractLsb' 33 8 = 0) ∧
  (∀ l t, exec (.edge l t) State.reset = .next State.reset) ∧
  exec .decode State.reset = .next { State.reset with err := .insufficientData, decState := .done }

/-- Every operation completes in every state, but for DECODE with the gate open and RDSMP at or above CAPACITY
(93_implementation_defined.md section 1: no trap for misuse and no operation that blocks). -/
def Obligations.AdmittedOperationsComplete : Prop :=
  ∀ (i : Instr) (s : State), (i = .decode → s.cbEn = false) → (∀ idx, i = .rdsmp idx → idx.toNat < s.cfg.capacity) →
    ∃ t, exec i s = .next t

/-- No step changes the parameters (70_reset_and_hazards.md R304). -/
def Obligations.ParametersConstant : Prop := ∀ s t : State, step s = .next t → t.cfg = s.cfg

/-! ## The Edge Capture Buffer -/

/-- ARM writes -1 to `count` and `unset` to `last_level`, and nothing else (40_capture_buffer.md R121). -/
def Obligations.ArmResetsCursorAndFilter : Prop :=
  ∀ s : State, exec .arm s = .next { s with count := .waiting, lastLevel := none, response := .none }

/-- ENABLE opens the gate and does nothing else (40_capture_buffer.md R122). -/
def Obligations.EnableOpensGate : Prop :=
  ∀ s : State, exec .enable s = .next { s with cbEn := true, response := .none }

/-- DISARM closes the gate and does nothing else (40_capture_buffer.md R127). -/
def Obligations.DisarmClosesGate : Prop :=
  ∀ s : State, exec .disarm s = .next { s with cbEn := false, response := .none }

/-- A gated EDGE, a duplicate, and an EDGE on a full buffer change nothing (40_capture_buffer.md R123 steps 0, 2, 5;
R126 b, d, e). -/
def Obligations.EdgeWithoutEffect : Prop :=
  ∀ (l : Level) (now : Micros) (s : State),
    (s.cbEn = false ∨ s.lastLevel = some l ∨ ∃ n, s.count = .stored n ∧ s.cfg.capacity ≤ n) →
      exec (.edge l now) s = .next { s with response := .none }

/-- The first accepted EDGE after ARM is the arming edge: it stores no sample (40_capture_buffer.md R123 step 3). -/
def Obligations.ArmingEdgeRecorded : Prop :=
  ∀ (l : Level) (now : Micros) (s : State),
    s.cbEn = true → s.lastLevel ≠ some l → s.count = .waiting →
      exec (.edge l now) s =
        .next { s with lastTime := now, lastLevel := some l, count := .stored 0, response := .none }

/-- An accepted EDGE on a buffer with room stores the elapsed time and the level of LEVEL_SENSE at index `count`, and
leaves every other entry alone (40_capture_buffer.md R123 step 4, R124, R125). -/
def Obligations.EdgeStoresSample : Prop :=
  ∀ (l p : Level) (now : Micros) (s : State) (n : Nat),
    s.cbEn = true → s.lastLevel = some p → p ≠ l → s.count = .stored n → n < s.cfg.capacity →
      ∃ t, exec (.edge l now) s = .next t ∧
        t = { s with
              store := t.store, count := .stored (n + 1), lastTime := now, lastLevel := some l, response := .none } ∧
        (t.sampleAt n).duration.toNat = microsSince now s.lastTime ∧
        (t.sampleAt n).level = (match s.cfg.levelSense with | .after => l | .before => p) ∧
        ∀ k, k ≠ n → t.sampleAt k = s.sampleAt k

/-- EDGE touches only `count`, `last_level`, `last_time` and the store (60_exceptions.md R282), whatever the state. -/
def Obligations.EdgeTouchesOnlyBuffer : Prop :=
  ∀ (l : Level) (now : Micros) (s t : State), exec (.edge l now) s = .next t →
    t = { s with count := t.count, lastLevel := t.lastLevel, lastTime := t.lastTime, store := t.store, response := .none }

/-- After a DISARM no number of EDGEs changes any state (40_capture_buffer.md R128, 20_memory.md R71). -/
def Obligations.EdgesAfterDisarmDropped : Prop :=
  ∀ (s : State) (es : List (Level × Micros)),
    execAll (.disarm :: es.map fun e => .edge e.1 e.2) s = .next { s with cbEn := false, response := .none }

/-- RDCNT returns `count` in 9-bit two's complement and changes nothing (40_capture_buffer.md R130, 30_encoding.md
R102). The hypothesis holds wherever `count <= CAPACITY <= 255`. -/
def Obligations.RdcntReturnsCount : Prop :=
  ∀ s : State, s.count.samples ≤ 255 →
    ∃ w : BitVec 9, exec .rdcnt s = .next { s with response := .count w } ∧ w.toInt = s.count.toInt

/-- RDSMP below `count` returns the entry `{level, duration}` and changes nothing (40_capture_buffer.md R131). -/
def Obligations.RdsmpReturnsEntry : Prop :=
  ∀ (idx : BitVec 8) (s : State) (n : Nat), idx.toNat < s.cfg.capacity → s.count = .stored n → idx.toNat < n →
    ∃ w : BitVec 33, exec (.rdsmp idx) s = .next { s with response := .sample w } ∧
      w.extractLsb' 32 1 = (s.sampleAt idx.toNat).level.bit ∧
      w.extractLsb' 0 32 = (s.sampleAt idx.toNat).duration

/-- RDSMP of an entry at or above `count` returns some 33-bit value and changes nothing but the model's count of draws
(40_capture_buffer.md R131). Nothing is said of the value. -/
def Obligations.RdsmpOfStaleEntryRuns : Prop :=
  ∀ (idx : BitVec 8) (s : State), idx.toNat < s.cfg.capacity → s.count.toInt ≤ idx.toNat →
    ∃ w : BitVec 33, exec (.rdsmp idx) s = .next { s with response := .sample w, draws := s.draws + 1 }

/-- RDSMP at or above CAPACITY is refused (40_capture_buffer.md R131, 30_encoding.md R99). -/
def Obligations.RdsmpBeyondCapacityRefused : Prop :=
  ∀ (idx : BitVec 8) (s : State), s.cfg.capacity ≤ idx.toNat → exec (.rdsmp idx) s = .refused .noSuchEntry

/-- Until the next ARM or START `count` does not fall and every entry below it is final (20_memory.md R70 a, c). -/
def Obligations.StoredSamplesFinal : Prop :=
  ∀ (i : Instr) (s t : State), i ≠ .arm → (∀ pin now, i ≠ .start pin now) → exec i s = .next t →
    s.count.toInt ≤ t.count.toInt ∧ ∀ k < s.count.samples, t.sampleAt k = s.sampleAt k

/-- Only ARM and START set `count` to -1, and only EDGE raises it, by exactly 1 (10_state.md R21). -/
def Obligations.CountChangesOnlyByArmAndEdge : Prop :=
  ∀ (i : Instr) (s t : State), exec i s = .next t →
    t.count = s.count ∨
    (t.count = .waiting ∧ (i = .arm ∨ ∃ pin now, i = .start pin now)) ∨
    (∃ l now, i = .edge l now ∧ t.count.toInt = s.count.toInt + 1)

/-- Only EDGE writes the store (20_memory.md R62, 42_protocol_decoder.md R190). -/
def Obligations.OnlyEdgeWritesStore : Prop :=
  ∀ (i : Instr) (s t : State), (∀ l now, i ≠ .edge l now) → exec i s = .next t → ∀ k, t.sampleAt k = s.sampleAt k

/-- After the arming edge every EDGE keeps `last_time` less the sum of the stored durations, modulo `2^32`: it stays the
time of the arming edge (40_capture_buffer.md R126 g). -/
def Obligations.DurationsTelescope : Prop :=
  ∀ (l : Level) (now : Micros) (s t : State), s.count ≠ .waiting → exec (.edge l now) s = .next t →
    t.lastTime - durationSum t t.count.samples = s.lastTime - durationSum s s.count.samples

/-! ## Invariants -/

/-- Every step keeps the invariant: the store's canonical form, the completed entries below `count`, the level filter,
the pin's claim and direction, the observed decoder states, the outcome. -/
def Obligations.StepKeepsInv : Prop := ∀ s t : State, Inv s → step s = .next t → Inv t

/-- The reset state of every admissible configuration has the invariant, and its levels alternate vacuously. -/
def Obligations.ResetHasInv : Prop :=
  ∀ c : Config, c.WellFormed → Inv (State.resetWith c) ∧ LevelsAlternate (State.resetWith c)

/-- Every step keeps the stored levels alternating (40_capture_buffer.md R126 f). -/
def Obligations.StepKeepsLevelsAlternate : Prop :=
  ∀ s t : State, Inv s → LevelsAlternate s → step s = .next t → LevelsAlternate t

/-! ## The Reset Sequencer -/

/-- START in a running state answers REJECTED_BUSY and changes nothing (41_reset_sequencer.md R152). -/
def Obligations.StartRejectsBusy : Prop :=
  ∀ (pin : PinNum) (now : Micros) (s : State),
    (s.seqState = .lowHold ∨ s.seqState = .settle ∨ s.seqState = .observe) →
      exec (.start pin now) s = .next { s with response := .start 1 }

/-- START of an inadmissible pin in a resting state answers REJECTED_INVALID and changes nothing
(41_reset_sequencer.md R152, 30_encoding.md R99). -/
def Obligations.StartRejectsInvalidPin : Prop :=
  ∀ (pin : PinNum) (now : Micros) (s : State),
    (s.seqState = .idle ∨ s.seqState = .done ∨ s.seqState = .failed) → s.cfg.pinMax < pin.toNat →
      exec (.start pin now) s = .next { s with response := .start 2 }

/-- START of an admissible pin in a resting state, every driver call answering ok, arms, enables, drives the line low
and enters LOW_HOLD (41_reset_sequencer.md R152). -/
def Obligations.StartBeginsSession : Prop :=
  ∀ (pin : PinNum) (now : Micros) (s : State),
    (s.seqState = .idle ∨ s.seqState = .done ∨ s.seqState = .failed) → pin.toNat ≤ s.cfg.pinMax →
    s.answers = ⟨.ok, .ok, .ok⟩ →
      exec (.start pin now) s =
        .next { s with
          seqPin := pin, err := .none, reading := none, decState := .idle, pinClaimed := true, count := .waiting,
          lastLevel := none, cbEn := true, pinOe := true, pinO := .low, seqT0 := now, seqState := .lowHold,
          calls := s.calls ++
            [.claim pin .ok, .onTransition pin .ok, .setDirection pin .output .ok, .write pin .low],
          response := .start 0 }

/-- The three ways an accepted START fails, with what each has undone (41_reset_sequencer.md R152, R153;
60_exceptions.md R261): the pin not claimed, the callback not registered, the direction not set. -/
def Obligations.StartFailurePaths : Prop :=
  ∀ (pin : PinNum) (now : Micros) (s : State),
    (s.seqState = .idle ∨ s.seqState = .done ∨ s.seqState = .failed) → pin.toNat ≤ s.cfg.pinMax →
    (s.answers.claim = .fail →
      exec (.start pin now) s =
        .next { s with
          seqPin := pin, err := .hardwareAcquisitionFailure, reading := none, decState := .idle, seqState := .failed,
          calls := s.calls ++ [.claim pin .fail], response := .start 0 }) ∧
    (s.answers.claim = .ok → s.answers.onTransition = .fail →
      exec (.start pin now) s =
        .next { s with
          seqPin := pin, err := .hardwareAcquisitionFailure, reading := none, decState := .idle, seqState := .failed,
          count := .waiting, lastLevel := none, cbEn := false, pinClaimed := false, pinOe := false,
          calls := s.calls ++ ([.claim pin .ok, .onTransition pin .fail] ++
            (if s.cbEn then [.offTransition pin] else []) ++ [.release pin]),
          response := .start 0 }) ∧
    (s.answers.claim = .ok → s.answers.onTransition = .ok → s.answers.setDirection = .fail →
      exec (.start pin now) s =
        .next { s with
          seqPin := pin, err := .hardwareAcquisitionFailure, reading := none, decState := .idle, seqState := .failed,
          count := .waiting, lastLevel := none, cbEn := false, pinClaimed := false, pinOe := false,
          calls := s.calls ++ [.claim pin .ok, .onTransition pin .ok, .setDirection pin .output .fail,
            .offTransition pin, .release pin],
          response := .start 0 })

/-- TICK in a resting state changes nothing, whatever `now` (41_reset_sequencer.md R159). -/
def Obligations.TickRestingDoesNothing : Prop :=
  ∀ (now : Micros) (s : State), (s.seqState = .idle ∨ s.seqState = .done ∨ s.seqState = .failed) →
    exec (.tick now) s = .next { s with response := .none }

/-- TICK before the state's interval has passed changes nothing (41_reset_sequencer.md R155). -/
def Obligations.TickBeforeIntervalDoesNothing : Prop :=
  ∀ (now : Micros) (s : State),
    (s.seqState = .lowHold ∧ microsSince now s.seqT0 < s.cfg.tLow ∨
      s.seqState = .settle ∧ microsSince now s.seqT0 < s.cfg.tSettle ∨
      s.seqState = .observe ∧ microsSince now s.seqT0 < s.cfg.tWindow) →
    exec (.tick now) s = .next { s with response := .none }

/-- TICK in LOW_HOLD after T_LOW drives the line high and enters SETTLE (41_reset_sequencer.md R156). -/
def Obligations.TickReleasesLineHigh : Prop :=
  ∀ (now : Micros) (s : State), s.seqState = .lowHold → s.cfg.tLow ≤ microsSince now s.seqT0 →
    exec (.tick now) s =
      .next { s with
        pinO := .high, seqT0 := now, seqState := .settle, calls := s.calls ++ [.write s.seqPin .high],
        response := .none }

/-- TICK in SETTLE after T_SETTLE switches the pin to input and enters OBSERVE, or, where the direction cannot be set,
aborts with HardwareAcquisitionFailure (41_reset_sequencer.md R157, R153). -/
def Obligations.TickHandsLineOver : Prop :=
  ∀ (now : Micros) (s : State), s.seqState = .settle → s.cfg.tSettle ≤ microsSince now s.seqT0 →
    (s.answers.setDirection = .ok →
      exec (.tick now) s =
        .next { s with
          pinOe := false, seqT0 := now, seqState := .observe,
          calls := s.calls ++ [.setDirection s.seqPin .input .ok], response := .none }) ∧
    (s.answers.setDirection = .fail →
      exec (.tick now) s =
        .next { s with
          cbEn := false, pinClaimed := false, pinOe := false, seqState := .failed,
          err := .hardwareAcquisitionFailure, reading := none,
          calls := s.calls ++ ([.setDirection s.seqPin .input .fail] ++
            (if s.cbEn then [.offTransition s.seqPin] else []) ++ [.release s.seqPin]),
          response := .none })

/-- TICK in OBSERVE after T_WINDOW unregisters the callback, closes the gate, releases the pin and enters DONE
(41_reset_sequencer.md R158). -/
def Obligations.TickEndsCapture : Prop :=
  ∀ (now : Micros) (s : State), s.seqState = .observe → s.cfg.tWindow ≤ microsSince now s.seqT0 →
    exec (.tick now) s =
      .next { s with
        cbEn := false, pinClaimed := false, seqState := .done,
        calls := s.calls ++ [.offTransition s.seqPin, .release s.seqPin], response := .none }

/-- No operation changes `seq_state` but by a row of the transition relation (41_reset_sequencer.md R160). -/
def Obligations.SequencerTransitionRelation : Prop :=
  ∀ (i : Instr) (s t : State), exec i s = .next t →
    t.seqState = s.seqState ∨
    (∃ pin now, i = .start pin now ∧ s.seqState.running = false ∧ pin.toNat ≤ s.cfg.pinMax ∧
      (t.seqState = .lowHold ∧ s.answers = ⟨.ok, .ok, .ok⟩ ∨ t.seqState = .failed ∧ s.answers ≠ ⟨.ok, .ok, .ok⟩)) ∨
    (∃ now, i = .tick now ∧
      (s.seqState = .lowHold ∧ s.cfg.tLow ≤ microsSince now s.seqT0 ∧ t.seqState = .settle ∨
        s.seqState = .settle ∧ s.cfg.tSettle ≤ microsSince now s.seqT0 ∧
          (t.seqState = .observe ∧ s.answers.setDirection = .ok ∨
            t.seqState = .failed ∧ s.answers.setDirection = .fail) ∨
        s.seqState = .observe ∧ s.cfg.tWindow ≤ microsSince now s.seqT0 ∧ t.seqState = .done))

/-- Only START and TICK make driver calls and write the sequencer's registers (10_state.md R20); the others, ENABLE and
DISARM among them, do neither (40_capture_buffer.md R122, R127; 60_exceptions.md R274 to R279). -/
def Obligations.OnlySequencerCallsDriver : Prop :=
  ∀ (i : Instr) (s t : State), (∀ pin now, i ≠ .start pin now) → (∀ now, i ≠ .tick now) → exec i s = .next t →
    t.calls = s.calls ∧ t.seqState = s.seqState ∧ t.seqPin = s.seqPin ∧ t.seqT0 = s.seqT0 ∧ t.pinClaimed = s.pinClaimed ∧ t.pinOe = s.pinOe ∧ t.pinO = s.pinO

/-- Every operation changes successful claims less releases by exactly the change of `pin_claimed`: each successful
claim is followed by exactly one release (41_reset_sequencer.md R162). -/
def Obligations.ClaimsAndReleasesBalance : Prop :=
  ∀ (i : Instr) (s t : State), Inv s → exec i s = .next t →
    claimsHeld t.calls - (if t.pinClaimed then 1 else 0) = claimsHeld s.calls - (if s.pinClaimed then 1 else 0)

/-- A session that succeeds makes exactly the eight driver calls of 41_reset_sequencer.md R162, in order, and ends in
DONE with the gate closed and the pin released (R151). -/
def Obligations.SessionMakesEightDriverCalls : Prop :=
  ∀ (pin : PinNum) (t0 t1 t2 t3 : Micros) (s : State),
    s.seqState.running = false → pin.toNat ≤ s.cfg.pinMax → s.answers = ⟨.ok, .ok, .ok⟩ →
    s.cfg.tLow ≤ microsSince t1 t0 → s.cfg.tSettle ≤ microsSince t2 t1 →
    s.cfg.tWindow ≤ microsSince t3 t2 →
      ∃ t, execAll [.start pin t0, .tick t1, .tick t2, .tick t3] s = .next t ∧
        t.calls = s.calls ++ [.claim pin .ok, .onTransition pin .ok, .setDirection pin .output .ok, .write pin .low,
          .write pin .high, .setDirection pin .input .ok, .offTransition pin, .release pin] ∧
        t.seqState = .done ∧ t.cbEn = false ∧ t.pinClaimed = false ∧ t.pinOe = false ∧ t.err = .none

/-! ## The Protocol Decoder -/

/-- DECODE while `cb_en` is 1 is refused (42_protocol_decoder.md R190). -/
def Obligations.DecodeRefusedWhileEnabled : Prop :=
  ∀ s : State, s.cbEn = true → exec .decode s = .refused .decodeWhileEnabled

/-- Step 1: `count < MIN_EDGES`, signed, fails with InsufficientData, and nothing else is written
(42_protocol_decoder.md R191). -/
def Obligations.DecodeNeedsMinEdges : Prop :=
  ∀ s : State, s.cbEn = false → s.count.toInt < s.cfg.minEdges →
    exec .decode s =
      .next { s with err := .insufficientData, reading := none, decState := .done, response := .none }

/-- Step 2: DECODE fails with NoAcknowledgement exactly where `count >= MIN_EDGES` and no sample below `count` reaches
T_ACK; `dec_idx` is then `count` (42_protocol_decoder.md R193, 60_exceptions.md R263). -/
def Obligations.DecodeNoAcknowledgement : Prop :=
  ∀ s t : State, exec .decode s = .next t →
    (t.err = .noAcknowledgement ↔
      (s.cfg.minEdges : Int) ≤ s.count.toInt ∧ ∀ k < s.count.samples, (s.sampleAt k).duration.toNat < s.cfg.tAck) ∧
    (t.err = .noAcknowledgement →
      t = { s with
            decIdx := BitVec.ofNat 8 s.count.samples, err := .noAcknowledgement, reading := none, decState := .done,
            response := .none })

/-- Step 3: where the first long sample `i` fails the validation, or the samples to validate do not all exist, DECODE
fails with MalformedAcknowledgement and `dec_idx = i` (42_protocol_decoder.md R194). -/
def Obligations.DecodeMalformedAcknowledgement : Prop :=
  ∀ (s : State) (i n : Nat), s.cbEn = false → s.count = .stored n → s.cfg.minEdges ≤ n → i < n →
    (∀ k < i, (s.sampleAt k).duration.toNat < s.cfg.tAck) → s.cfg.tAck ≤ (s.sampleAt i).duration.toNat →
    (n ≤ i + 3 ∨ (s.sampleAt i).level = .high ∨ (s.sampleAt (i + 2)).duration.toNat ≤ s.cfg.tHalf ∨
      (s.sampleAt (i + 3)).duration.toNat ≤ s.cfg.tHalf) →
      exec .decode s =
        .next { s with
          decIdx := BitVec.ofNat 8 i, err := .malformedAcknowledgement, reading := none, decState := .done,
          response := .none }

/-- End of step 4: fewer than 40 bits fail with InsufficientData; `dec_nbits` counts them, `dec_idx` is `count`, and byte
`k` of `data[]` is the number that the bits `8k .. 8k+7` recovered make, most significant first: all eight of them in a
completed byte, those there are in the low positions of the next, 0 in a byte that no bit reached, for step 4 clears all
five (10_state.md R38, 42_protocol_decoder.md R190, R195 to R197). -/
def Obligations.DecodeRunsOutOfBits : Prop :=
  ∀ (s : State) (i n : Nat), s.cfg.WellFormed → s.cbEn = false → Acknowledged s i n →
    (arrivedBits s (i + 4) n).length < 40 →
    ∃ p : Payload,
      exec .decode s =
        .next { s with
          data := p, decNbits := BitVec.ofNat 6 (arrivedBits s (i + 4) n).length, decIdx := BitVec.ofNat 8 n,
          err := .insufficientData, reading := none, decState := .done, response := .none } ∧
      (∀ k < 5, (payloadByte p k).toNat = bitsNumber (((arrivedBits s (i + 4) n).drop (8 * k)).take 8)) ∧
      ∀ k < 8 * ((arrivedBits s (i + 4) n).length / 8), (arrivedBits s (i + 4) n)[k]? = some (payloadBit p k)

/-- Step 5: a payload whose first four bytes do not sum to the fifth, modulo 256, fails with ChecksumMismatch; the
payload stays in `data[]` (42_protocol_decoder.md R196, R198). -/
def Obligations.DecodeChecksumMismatch : Prop :=
  ∀ (s : State) (i n : Nat) (p : Payload), s.cfg.WellFormed → s.cbEn = false → Acknowledged s i n →
    IsPayload s (i + 4) n p →
    (p.b0.toNat + p.b1.toNat + p.b2.toNat + p.b3.toNat) % 256 ≠ p.b4.toNat →
      ∃ j, AfterFortieth s (i + 4) n j ∧
        exec .decode s =
          .next { s with
            data := p, decNbits := 40, decIdx := BitVec.ofNat 8 j, err := .checksumMismatch, reading := none,
            decState := .done, response := .none }

/-- Step 5: a payload of five zero bytes fails with AllZeroPayload (42_protocol_decoder.md R199). -/
def Obligations.DecodeAllZeroPayload : Prop :=
  ∀ (s : State) (i n : Nat), s.cfg.WellFormed → s.cbEn = false → Acknowledged s i n →
    IsPayload s (i + 4) n ⟨0, 0, 0, 0, 0⟩ →
    ∃ j, AfterFortieth s (i + 4) n j ∧
      exec .decode s =
        .next { s with
          data := ⟨0, 0, 0, 0, 0⟩, decNbits := 40, decIdx := BitVec.ofNat 8 j, err := .allZeroPayload, reading := none,
          decState := .done, response := .none }

/-- Steps 5 to 8: a payload that passes is delivered as a reading of the inferred kind, with humidity and temperature by
the kind's field layout (42_protocol_decoder.md R198 to R203). -/
def Obligations.DecodeDeliversReading : Prop :=
  ∀ (s : State) (i n : Nat) (p : Payload), s.cfg.WellFormed → s.cbEn = false → Acknowledged s i n →
    IsPayload s (i + 4) n p →
    (p.b0.toNat + p.b1.toNat + p.b2.toNat + p.b3.toNat) % 256 = p.b4.toNat →
    ¬(p.b0 = 0 ∧ p.b1 = 0 ∧ p.b2 = 0 ∧ p.b3 = 0) →
      ∃ j r, AfterFortieth s (i + 4) n j ∧
        exec .decode s =
          .next { s with
            data := p, decNbits := 40, decIdx := BitVec.ofNat 8 j, err := .none, reading := some r, decState := .done,
            response := .none } ∧
        (p.b1 = 0 ∧ p.b3 = 0 →
          r.kind = .a ∧ r.hum.toNat = 10 * p.b0.toNat ∧ r.temp.toInt = 10 * p.b2.toNat) ∧
        (¬(p.b1 = 0 ∧ p.b3 = 0) →
          r.kind = .b ∧ r.hum.toNat = 256 * p.b0.toNat + p.b1.toNat ∧
          r.temp.toInt =
            (if 128 ≤ p.b2.toNat then -1 else 1) * (256 * (p.b2.toNat % 128) + p.b3.toNat : Int))

/-- DECODE looks at nothing but the gate, `count`, the parameters and the samples below `count`: two states that agree on
these decode to the same outcome, whatever stale entries they hold (42_protocol_decoder.md R192, R204). -/
def Obligations.DecodeReadsOnlyBelowCount : Prop :=
  ∀ s t s' : State, SameBuffer s t → exec .decode s = .next s' →
    ∃ t', exec .decode t = .next t' ∧ t'.err = s'.err ∧ t'.reading = s'.reading ∧ t'.decState = s'.decState ∧
      (t.decIdx = s.decIdx → t'.decIdx = s'.decIdx) ∧ (t.decNbits = s.decNbits → t'.decNbits = s'.decNbits) ∧
      (t.data = s.data → t'.data = s'.data)

/-- DECODE writes decoder registers and `err` only: the buffer and the sequencer are untouched (42_protocol_decoder.md
R190). -/
def Obligations.DecodeWritesOnlyDecoder : Prop :=
  ∀ s t : State, exec .decode s = .next t →
    t = { s with
          decIdx := t.decIdx, decNbits := t.decNbits, data := t.data, err := t.err, reading := t.reading,
          decState := .done, response := .none }

/-- A second DECODE on the same buffer changes nothing (42_protocol_decoder.md R190). -/
def Obligations.DecodeIdempotent : Prop :=
  ∀ s t : State, exec .decode s = .next t → exec .decode t = .next t

/-- The stepwise decoder, started on a frozen buffer, reaches D_DONE within `count + 3` steps, its entry among them, in
the very state the atomic DECODE leaves (42_protocol_decoder.md R216). -/
def Obligations.StepwiseDecoderAgrees : Prop :=
  ∀ s : State, Inv s → s.cbEn = false →
    ∃ k : Nat, (k : Int) + 1 ≤ s.count.toInt + 3 ∧
      (decoderSteps k (decoderEntry s)).decState = .done ∧
      exec .decode s = .next { decoderSteps k (decoderEntry s) with response := .none }

/-- Round trip: the standard buffer of a reading that can round-trip decodes to that reading, for every parameter setting
the nominal timings fit (42_protocol_decoder.md R209 e, 95_test_vectors.md section 3). -/
def Obligations.StandardBufferRoundTrips : Prop :=
  ∀ (r : Reading) (s : State), RoundTrips r → s.cfg.WellFormed → s.cbEn = false →
    s.count = .stored 85 → s.cfg.minEdges ≤ 85 → s.cfg.tAck ≤ 2000 → s.cfg.tHalf < 80 → 26 < s.cfg.tBit → s.cfg.tBit ≤ 70 →
    (∀ k < 85, s.sampleAt k = standardSample (payloadOf r) k) →
      ∃ t, exec .decode s = .next t ∧ t.err = .none ∧ t.reading = some r ∧ t.data = payloadOf r ∧
        t.decIdx = 84 ∧ t.decNbits = 40

/-- The codes the response words carry (10_state.md R30, R41; 60_exceptions.md R260). -/
def Obligations.RegisterCodes : Prop :=
  SeqState.code .idle = 0 ∧ SeqState.code .lowHold = 1 ∧ SeqState.code .settle = 2 ∧ SeqState.code .observe = 3 ∧
  SeqState.code .done = 4 ∧ SeqState.code .failed = 5 ∧
  Err.code .none = 0 ∧ Err.code .hardwareAcquisitionFailure = 1 ∧ Err.code .insufficientData = 2 ∧
  Err.code .noAcknowledgement = 3 ∧ Err.code .malformedAcknowledgement = 4 ∧ Err.code .checksumMismatch = 5 ∧
  Err.code .allZeroPayload = 6 ∧ Kind.bit .a = 0 ∧ Kind.bit .b = 1

/-- RDRES with a valid reading returns the status and the reading in the fields of 30_encoding.md R104 and changes
nothing (42_protocol_decoder.md R205). -/
def Obligations.RdresReportsReading : Prop :=
  ∀ (s : State) (r : Reading), s.reading = some r →
    ∃ w : BitVec 41, exec .rdres s = .next { s with response := .result w } ∧
      w.extractLsb' 38 3 = s.seqState.code ∧ w.extractLsb' 37 1 = (if s.decState = .done then 1 else 0) ∧
      w.extractLsb' 34 3 = s.err.code ∧ w.extractLsb' 33 1 = 1 ∧
      w.extractLsb' 32 1 = (match r.kind with | .a => 0 | .b => 1) ∧
      w.extractLsb' 16 16 = r.hum ∧ w.extractLsb' 0 16 = r.temp

/-- RDRES without a valid reading returns the status, and anything in bits 32:0; it changes nothing but the model's count
of draws (42_protocol_decoder.md R205, 30_encoding.md R104). -/
def Obligations.RdresReportsStatus : Prop :=
  ∀ s : State, s.reading = none →
    ∃ w : BitVec 41, exec .rdres s = .next { s with response := .result w, draws := s.draws + 1 } ∧
      w.extractLsb' 38 3 = s.seqState.code ∧ w.extractLsb' 37 1 = (if s.decState = .done then 1 else 0) ∧
      w.extractLsb' 34 3 = s.err.code ∧ w.extractLsb' 33 1 = 0

end
end

