-- ==== Sys2Proof/Laws/State.lean ====
section
/-! SUPPORT. One lemma per field per named update of the state, and what each update does to the sample read at an
index, so that no later proof unfolds a record update. -/

namespace Sys2Proof.Machine

variable (s : State)

section
variable (r : Response)
@[simp] theorem respond_count : (respond r s).count = s.count := rfl
@[simp] theorem respond_lastLevel : (respond r s).lastLevel = s.lastLevel := rfl
@[simp] theorem respond_lastTime : (respond r s).lastTime = s.lastTime := rfl
@[simp] theorem respond_store : (respond r s).store = s.store := rfl
@[simp] theorem respond_cbEn : (respond r s).cbEn = s.cbEn := rfl
@[simp] theorem respond_seqState : (respond r s).seqState = s.seqState := rfl
@[simp] theorem respond_seqPin : (respond r s).seqPin = s.seqPin := rfl
@[simp] theorem respond_seqT0 : (respond r s).seqT0 = s.seqT0 := rfl
@[simp] theorem respond_pinClaimed : (respond r s).pinClaimed = s.pinClaimed := rfl
@[simp] theorem respond_pinOe : (respond r s).pinOe = s.pinOe := rfl
@[simp] theorem respond_pinO : (respond r s).pinO = s.pinO := rfl
@[simp] theorem respond_decState : (respond r s).decState = s.decState := rfl
@[simp] theorem respond_decIdx : (respond r s).decIdx = s.decIdx := rfl
@[simp] theorem respond_decNbits : (respond r s).decNbits = s.decNbits := rfl
@[simp] theorem respond_data : (respond r s).data = s.data := rfl
@[simp] theorem respond_err : (respond r s).err = s.err := rfl
@[simp] theorem respond_reading : (respond r s).reading = s.reading := rfl
@[simp] theorem respond_cfg : (respond r s).cfg = s.cfg := rfl
@[simp] theorem respond_pending : (respond r s).pending = s.pending := rfl
@[simp] theorem respond_answers : (respond r s).answers = s.answers := rfl
@[simp] theorem respond_calls : (respond r s).calls = s.calls := rfl
@[simp] theorem respond_response : (respond r s).response = r := rfl
@[simp] theorem respond_draws : (respond r s).draws = s.draws := rfl
@[simp] theorem respond_sampleAt (i : Nat) : (respond r s).sampleAt i = s.sampleAt i := rfl
end

section
variable (c : DrvCall)
@[simp] theorem callDriver_count : (callDriver c s).count = s.count := rfl
@[simp] theorem callDriver_lastLevel : (callDriver c s).lastLevel = s.lastLevel := rfl
@[simp] theorem callDriver_lastTime : (callDriver c s).lastTime = s.lastTime := rfl
@[simp] theorem callDriver_store : (callDriver c s).store = s.store := rfl
@[simp] theorem callDriver_cbEn : (callDriver c s).cbEn = s.cbEn := rfl
@[simp] theorem callDriver_seqState : (callDriver c s).seqState = s.seqState := rfl
@[simp] theorem callDriver_seqPin : (callDriver c s).seqPin = s.seqPin := rfl
@[simp] theorem callDriver_seqT0 : (callDriver c s).seqT0 = s.seqT0 := rfl
@[simp] theorem callDriver_pinClaimed : (callDriver c s).pinClaimed = s.pinClaimed := rfl
@[simp] theorem callDriver_pinOe : (callDriver c s).pinOe = s.pinOe := rfl
@[simp] theorem callDriver_pinO : (callDriver c s).pinO = s.pinO := rfl
@[simp] theorem callDriver_decState : (callDriver c s).decState = s.decState := rfl
@[simp] theorem callDriver_decIdx : (callDriver c s).decIdx = s.decIdx := rfl
@[simp] theorem callDriver_decNbits : (callDriver c s).decNbits = s.decNbits := rfl
@[simp] theorem callDriver_data : (callDriver c s).data = s.data := rfl
@[simp] theorem callDriver_err : (callDriver c s).err = s.err := rfl
@[simp] theorem callDriver_reading : (callDriver c s).reading = s.reading := rfl
@[simp] theorem callDriver_cfg : (callDriver c s).cfg = s.cfg := rfl
@[simp] theorem callDriver_pending : (callDriver c s).pending = s.pending := rfl
@[simp] theorem callDriver_answers : (callDriver c s).answers = s.answers := rfl
@[simp] theorem callDriver_calls : (callDriver c s).calls = s.calls ++ [c] := rfl
@[simp] theorem callDriver_response : (callDriver c s).response = s.response := rfl
@[simp] theorem callDriver_draws : (callDriver c s).draws = s.draws := rfl
@[simp] theorem callDriver_sampleAt (i : Nat) : (callDriver c s).sampleAt i = s.sampleAt i := rfl
end

section
@[simp] theorem drawn_count : (drawn s).count = s.count := rfl
@[simp] theorem drawn_lastLevel : (drawn s).lastLevel = s.lastLevel := rfl
@[simp] theorem drawn_lastTime : (drawn s).lastTime = s.lastTime := rfl
@[simp] theorem drawn_store : (drawn s).store = s.store := rfl
@[simp] theorem drawn_cbEn : (drawn s).cbEn = s.cbEn := rfl
@[simp] theorem drawn_seqState : (drawn s).seqState = s.seqState := rfl
@[simp] theorem drawn_seqPin : (drawn s).seqPin = s.seqPin := rfl
@[simp] theorem drawn_seqT0 : (drawn s).seqT0 = s.seqT0 := rfl
@[simp] theorem drawn_pinClaimed : (drawn s).pinClaimed = s.pinClaimed := rfl
@[simp] theorem drawn_pinOe : (drawn s).pinOe = s.pinOe := rfl
@[simp] theorem drawn_pinO : (drawn s).pinO = s.pinO := rfl
@[simp] theorem drawn_decState : (drawn s).decState = s.decState := rfl
@[simp] theorem drawn_decIdx : (drawn s).decIdx = s.decIdx := rfl
@[simp] theorem drawn_decNbits : (drawn s).decNbits = s.decNbits := rfl
@[simp] theorem drawn_data : (drawn s).data = s.data := rfl
@[simp] theorem drawn_err : (drawn s).err = s.err := rfl
@[simp] theorem drawn_reading : (drawn s).reading = s.reading := rfl
@[simp] theorem drawn_cfg : (drawn s).cfg = s.cfg := rfl
@[simp] theorem drawn_pending : (drawn s).pending = s.pending := rfl
@[simp] theorem drawn_answers : (drawn s).answers = s.answers := rfl
@[simp] theorem drawn_calls : (drawn s).calls = s.calls := rfl
@[simp] theorem drawn_response : (drawn s).response = s.response := rfl
@[simp] theorem drawn_draws : (drawn s).draws = s.draws + 1 := rfl
@[simp] theorem drawn_sampleAt (i : Nat) : (drawn s).sampleAt i = s.sampleAt i := rfl
end

section
@[simp] theorem armBuffer_count : (armBuffer s).count = .waiting := rfl
@[simp] theorem armBuffer_lastLevel : (armBuffer s).lastLevel = none := rfl
@[simp] theorem armBuffer_lastTime : (armBuffer s).lastTime = s.lastTime := rfl
@[simp] theorem armBuffer_store : (armBuffer s).store = s.store := rfl
@[simp] theorem armBuffer_cbEn : (armBuffer s).cbEn = s.cbEn := rfl
@[simp] theorem armBuffer_seqState : (armBuffer s).seqState = s.seqState := rfl
@[simp] theorem armBuffer_seqPin : (armBuffer s).seqPin = s.seqPin := rfl
@[simp] theorem armBuffer_seqT0 : (armBuffer s).seqT0 = s.seqT0 := rfl
@[simp] theorem armBuffer_pinClaimed : (armBuffer s).pinClaimed = s.pinClaimed := rfl
@[simp] theorem armBuffer_pinOe : (armBuffer s).pinOe = s.pinOe := rfl
@[simp] theorem armBuffer_pinO : (armBuffer s).pinO = s.pinO := rfl
@[simp] theorem armBuffer_decState : (armBuffer s).decState = s.decState := rfl
@[simp] theorem armBuffer_decIdx : (armBuffer s).decIdx = s.decIdx := rfl
@[simp] theorem armBuffer_decNbits : (armBuffer s).decNbits = s.decNbits := rfl
@[simp] theorem armBuffer_data : (armBuffer s).data = s.data := rfl
@[simp] theorem armBuffer_err : (armBuffer s).err = s.err := rfl
@[simp] theorem armBuffer_reading : (armBuffer s).reading = s.reading := rfl
@[simp] theorem armBuffer_cfg : (armBuffer s).cfg = s.cfg := rfl
@[simp] theorem armBuffer_pending : (armBuffer s).pending = s.pending := rfl
@[simp] theorem armBuffer_answers : (armBuffer s).answers = s.answers := rfl
@[simp] theorem armBuffer_calls : (armBuffer s).calls = s.calls := rfl
@[simp] theorem armBuffer_response : (armBuffer s).response = s.response := rfl
@[simp] theorem armBuffer_draws : (armBuffer s).draws = s.draws := rfl
@[simp] theorem armBuffer_sampleAt (i : Nat) : (armBuffer s).sampleAt i = s.sampleAt i := rfl
end

section
@[simp] theorem openGate_count : (openGate s).count = s.count := rfl
@[simp] theorem openGate_lastLevel : (openGate s).lastLevel = s.lastLevel := rfl
@[simp] theorem openGate_lastTime : (openGate s).lastTime = s.lastTime := rfl
@[simp] theorem openGate_store : (openGate s).store = s.store := rfl
@[simp] theorem openGate_cbEn : (openGate s).cbEn = true := rfl
@[simp] theorem openGate_seqState : (openGate s).seqState = s.seqState := rfl
@[simp] theorem openGate_seqPin : (openGate s).seqPin = s.seqPin := rfl
@[simp] theorem openGate_seqT0 : (openGate s).seqT0 = s.seqT0 := rfl
@[simp] theorem openGate_pinClaimed : (openGate s).pinClaimed = s.pinClaimed := rfl
@[simp] theorem openGate_pinOe : (openGate s).pinOe = s.pinOe := rfl
@[simp] theorem openGate_pinO : (openGate s).pinO = s.pinO := rfl
@[simp] theorem openGate_decState : (openGate s).decState = s.decState := rfl
@[simp] theorem openGate_decIdx : (openGate s).decIdx = s.decIdx := rfl
@[simp] theorem openGate_decNbits : (openGate s).decNbits = s.decNbits := rfl
@[simp] theorem openGate_data : (openGate s).data = s.data := rfl
@[simp] theorem openGate_err : (openGate s).err = s.err := rfl
@[simp] theorem openGate_reading : (openGate s).reading = s.reading := rfl
@[simp] theorem openGate_cfg : (openGate s).cfg = s.cfg := rfl
@[simp] theorem openGate_pending : (openGate s).pending = s.pending := rfl
@[simp] theorem openGate_answers : (openGate s).answers = s.answers := rfl
@[simp] theorem openGate_calls : (openGate s).calls = s.calls := rfl
@[simp] theorem openGate_response : (openGate s).response = s.response := rfl
@[simp] theorem openGate_draws : (openGate s).draws = s.draws := rfl
@[simp] theorem openGate_sampleAt (i : Nat) : (openGate s).sampleAt i = s.sampleAt i := rfl
end

section
@[simp] theorem closeGate_count : (closeGate s).count = s.count := rfl
@[simp] theorem closeGate_lastLevel : (closeGate s).lastLevel = s.lastLevel := rfl
@[simp] theorem closeGate_lastTime : (closeGate s).lastTime = s.lastTime := rfl
@[simp] theorem closeGate_store : (closeGate s).store = s.store := rfl
@[simp] theorem closeGate_cbEn : (closeGate s).cbEn = false := rfl
@[simp] theorem closeGate_seqState : (closeGate s).seqState = s.seqState := rfl
@[simp] theorem closeGate_seqPin : (closeGate s).seqPin = s.seqPin := rfl
@[simp] theorem closeGate_seqT0 : (closeGate s).seqT0 = s.seqT0 := rfl
@[simp] theorem closeGate_pinClaimed : (closeGate s).pinClaimed = s.pinClaimed := rfl
@[simp] theorem closeGate_pinOe : (closeGate s).pinOe = s.pinOe := rfl
@[simp] theorem closeGate_pinO : (closeGate s).pinO = s.pinO := rfl
@[simp] theorem closeGate_decState : (closeGate s).decState = s.decState := rfl
@[simp] theorem closeGate_decIdx : (closeGate s).decIdx = s.decIdx := rfl
@[simp] theorem closeGate_decNbits : (closeGate s).decNbits = s.decNbits := rfl
@[simp] theorem closeGate_data : (closeGate s).data = s.data := rfl
@[simp] theorem closeGate_err : (closeGate s).err = s.err := rfl
@[simp] theorem closeGate_reading : (closeGate s).reading = s.reading := rfl
@[simp] theorem closeGate_cfg : (closeGate s).cfg = s.cfg := rfl
@[simp] theorem closeGate_pending : (closeGate s).pending = s.pending := rfl
@[simp] theorem closeGate_answers : (closeGate s).answers = s.answers := rfl
@[simp] theorem closeGate_calls : (closeGate s).calls = s.calls := rfl
@[simp] theorem closeGate_response : (closeGate s).response = s.response := rfl
@[simp] theorem closeGate_draws : (closeGate s).draws = s.draws := rfl
@[simp] theorem closeGate_sampleAt (i : Nat) : (closeGate s).sampleAt i = s.sampleAt i := rfl
end

section
variable (l : Level) (t : Micros)
@[simp] theorem acceptArmingEdge_count : (acceptArmingEdge l t s).count = .stored 0 := rfl
@[simp] theorem acceptArmingEdge_lastLevel : (acceptArmingEdge l t s).lastLevel = some l := rfl
@[simp] theorem acceptArmingEdge_lastTime : (acceptArmingEdge l t s).lastTime = t := rfl
@[simp] theorem acceptArmingEdge_store : (acceptArmingEdge l t s).store = s.store := rfl
@[simp] theorem acceptArmingEdge_cbEn : (acceptArmingEdge l t s).cbEn = s.cbEn := rfl
@[simp] theorem acceptArmingEdge_seqState : (acceptArmingEdge l t s).seqState = s.seqState := rfl
@[simp] theorem acceptArmingEdge_seqPin : (acceptArmingEdge l t s).seqPin = s.seqPin := rfl
@[simp] theorem acceptArmingEdge_seqT0 : (acceptArmingEdge l t s).seqT0 = s.seqT0 := rfl
@[simp] theorem acceptArmingEdge_pinClaimed : (acceptArmingEdge l t s).pinClaimed = s.pinClaimed := rfl
@[simp] theorem acceptArmingEdge_pinOe : (acceptArmingEdge l t s).pinOe = s.pinOe := rfl
@[simp] theorem acceptArmingEdge_pinO : (acceptArmingEdge l t s).pinO = s.pinO := rfl
@[simp] theorem acceptArmingEdge_decState : (acceptArmingEdge l t s).decState = s.decState := rfl
@[simp] theorem acceptArmingEdge_decIdx : (acceptArmingEdge l t s).decIdx = s.decIdx := rfl
@[simp] theorem acceptArmingEdge_decNbits : (acceptArmingEdge l t s).decNbits = s.decNbits := rfl
@[simp] theorem acceptArmingEdge_data : (acceptArmingEdge l t s).data = s.data := rfl
@[simp] theorem acceptArmingEdge_err : (acceptArmingEdge l t s).err = s.err := rfl
@[simp] theorem acceptArmingEdge_reading : (acceptArmingEdge l t s).reading = s.reading := rfl
@[simp] theorem acceptArmingEdge_cfg : (acceptArmingEdge l t s).cfg = s.cfg := rfl
@[simp] theorem acceptArmingEdge_pending : (acceptArmingEdge l t s).pending = s.pending := rfl
@[simp] theorem acceptArmingEdge_answers : (acceptArmingEdge l t s).answers = s.answers := rfl
@[simp] theorem acceptArmingEdge_calls : (acceptArmingEdge l t s).calls = s.calls := rfl
@[simp] theorem acceptArmingEdge_response : (acceptArmingEdge l t s).response = s.response := rfl
@[simp] theorem acceptArmingEdge_draws : (acceptArmingEdge l t s).draws = s.draws := rfl
@[simp] theorem acceptArmingEdge_sampleAt (i : Nat) : (acceptArmingEdge l t s).sampleAt i = s.sampleAt i := rfl
end

section
variable (n : Nat) (l : Level) (t : Micros)
@[simp] theorem storeSample_count : (storeSample n l t s).count = .stored (n + 1) := rfl
@[simp] theorem storeSample_lastLevel : (storeSample n l t s).lastLevel = some l := rfl
@[simp] theorem storeSample_lastTime : (storeSample n l t s).lastTime = t := rfl
@[simp] theorem storeSample_store : (storeSample n l t s).store = memWrite s.store n ⟨elapsed t s.lastTime, storedLevel s.cfg.levelSense s.lastLevel l⟩ := rfl
@[simp] theorem storeSample_cbEn : (storeSample n l t s).cbEn = s.cbEn := rfl
@[simp] theorem storeSample_seqState : (storeSample n l t s).seqState = s.seqState := rfl
@[simp] theorem storeSample_seqPin : (storeSample n l t s).seqPin = s.seqPin := rfl
@[simp] theorem storeSample_seqT0 : (storeSample n l t s).seqT0 = s.seqT0 := rfl
@[simp] theorem storeSample_pinClaimed : (storeSample n l t s).pinClaimed = s.pinClaimed := rfl
@[simp] theorem storeSample_pinOe : (storeSample n l t s).pinOe = s.pinOe := rfl
@[simp] theorem storeSample_pinO : (storeSample n l t s).pinO = s.pinO := rfl
@[simp] theorem storeSample_decState : (storeSample n l t s).decState = s.decState := rfl
@[simp] theorem storeSample_decIdx : (storeSample n l t s).decIdx = s.decIdx := rfl
@[simp] theorem storeSample_decNbits : (storeSample n l t s).decNbits = s.decNbits := rfl
@[simp] theorem storeSample_data : (storeSample n l t s).data = s.data := rfl
@[simp] theorem storeSample_err : (storeSample n l t s).err = s.err := rfl
@[simp] theorem storeSample_reading : (storeSample n l t s).reading = s.reading := rfl
@[simp] theorem storeSample_cfg : (storeSample n l t s).cfg = s.cfg := rfl
@[simp] theorem storeSample_pending : (storeSample n l t s).pending = s.pending := rfl
@[simp] theorem storeSample_answers : (storeSample n l t s).answers = s.answers := rfl
@[simp] theorem storeSample_calls : (storeSample n l t s).calls = s.calls := rfl
@[simp] theorem storeSample_response : (storeSample n l t s).response = s.response := rfl
@[simp] theorem storeSample_draws : (storeSample n l t s).draws = s.draws := rfl
end

section
variable (d : Bool) (e : Err)
@[simp] theorem raiseFail_count : (raiseFail d e s).count = s.count := rfl
@[simp] theorem raiseFail_lastLevel : (raiseFail d e s).lastLevel = s.lastLevel := rfl
@[simp] theorem raiseFail_lastTime : (raiseFail d e s).lastTime = s.lastTime := rfl
@[simp] theorem raiseFail_store : (raiseFail d e s).store = s.store := rfl
@[simp] theorem raiseFail_cbEn : (raiseFail d e s).cbEn = s.cbEn := rfl
@[simp] theorem raiseFail_seqState : (raiseFail d e s).seqState = s.seqState := rfl
@[simp] theorem raiseFail_seqPin : (raiseFail d e s).seqPin = s.seqPin := rfl
@[simp] theorem raiseFail_seqT0 : (raiseFail d e s).seqT0 = s.seqT0 := rfl
@[simp] theorem raiseFail_pinClaimed : (raiseFail d e s).pinClaimed = s.pinClaimed := rfl
@[simp] theorem raiseFail_pinOe : (raiseFail d e s).pinOe = s.pinOe := rfl
@[simp] theorem raiseFail_pinO : (raiseFail d e s).pinO = s.pinO := rfl
@[simp] theorem raiseFail_decState : (raiseFail d e s).decState = if d then .done else s.decState := rfl
@[simp] theorem raiseFail_decIdx : (raiseFail d e s).decIdx = s.decIdx := rfl
@[simp] theorem raiseFail_decNbits : (raiseFail d e s).decNbits = s.decNbits := rfl
@[simp] theorem raiseFail_data : (raiseFail d e s).data = s.data := rfl
@[simp] theorem raiseFail_err : (raiseFail d e s).err = e := rfl
@[simp] theorem raiseFail_reading : (raiseFail d e s).reading = none := rfl
@[simp] theorem raiseFail_cfg : (raiseFail d e s).cfg = s.cfg := rfl
@[simp] theorem raiseFail_pending : (raiseFail d e s).pending = s.pending := rfl
@[simp] theorem raiseFail_answers : (raiseFail d e s).answers = s.answers := rfl
@[simp] theorem raiseFail_calls : (raiseFail d e s).calls = s.calls := rfl
@[simp] theorem raiseFail_response : (raiseFail d e s).response = s.response := rfl
@[simp] theorem raiseFail_draws : (raiseFail d e s).draws = s.draws := rfl
@[simp] theorem raiseFail_sampleAt (i : Nat) : (raiseFail d e s).sampleAt i = s.sampleAt i := rfl
end

section
variable (p : PinNum)
@[simp] theorem openSession_count : (openSession p s).count = s.count := rfl
@[simp] theorem openSession_lastLevel : (openSession p s).lastLevel = s.lastLevel := rfl
@[simp] theorem openSession_lastTime : (openSession p s).lastTime = s.lastTime := rfl
@[simp] theorem openSession_store : (openSession p s).store = s.store := rfl
@[simp] theorem openSession_cbEn : (openSession p s).cbEn = s.cbEn := rfl
@[simp] theorem openSession_seqState : (openSession p s).seqState = s.seqState := rfl
@[simp] theorem openSession_seqPin : (openSession p s).seqPin = p := rfl
@[simp] theorem openSession_seqT0 : (openSession p s).seqT0 = s.seqT0 := rfl
@[simp] theorem openSession_pinClaimed : (openSession p s).pinClaimed = s.pinClaimed := rfl
@[simp] theorem openSession_pinOe : (openSession p s).pinOe = s.pinOe := rfl
@[simp] theorem openSession_pinO : (openSession p s).pinO = s.pinO := rfl
@[simp] theorem openSession_decState : (openSession p s).decState = .idle := rfl
@[simp] theorem openSession_decIdx : (openSession p s).decIdx = s.decIdx := rfl
@[simp] theorem openSession_decNbits : (openSession p s).decNbits = s.decNbits := rfl
@[simp] theorem openSession_data : (openSession p s).data = s.data := rfl
@[simp] theorem openSession_err : (openSession p s).err = .none := rfl
@[simp] theorem openSession_reading : (openSession p s).reading = none := rfl
@[simp] theorem openSession_cfg : (openSession p s).cfg = s.cfg := rfl
@[simp] theorem openSession_pending : (openSession p s).pending = s.pending := rfl
@[simp] theorem openSession_answers : (openSession p s).answers = s.answers := rfl
@[simp] theorem openSession_calls : (openSession p s).calls = s.calls := rfl
@[simp] theorem openSession_response : (openSession p s).response = s.response := rfl
@[simp] theorem openSession_draws : (openSession p s).draws = s.draws := rfl
@[simp] theorem openSession_sampleAt (i : Nat) : (openSession p s).sampleAt i = s.sampleAt i := rfl
end

section
variable (r : BitRun)
@[simp] theorem loadRun_count : (loadRun r s).count = s.count := rfl
@[simp] theorem loadRun_lastLevel : (loadRun r s).lastLevel = s.lastLevel := rfl
@[simp] theorem loadRun_lastTime : (loadRun r s).lastTime = s.lastTime := rfl
@[simp] theorem loadRun_store : (loadRun r s).store = s.store := rfl
@[simp] theorem loadRun_cbEn : (loadRun r s).cbEn = s.cbEn := rfl
@[simp] theorem loadRun_seqState : (loadRun r s).seqState = s.seqState := rfl
@[simp] theorem loadRun_seqPin : (loadRun r s).seqPin = s.seqPin := rfl
@[simp] theorem loadRun_seqT0 : (loadRun r s).seqT0 = s.seqT0 := rfl
@[simp] theorem loadRun_pinClaimed : (loadRun r s).pinClaimed = s.pinClaimed := rfl
@[simp] theorem loadRun_pinOe : (loadRun r s).pinOe = s.pinOe := rfl
@[simp] theorem loadRun_pinO : (loadRun r s).pinO = s.pinO := rfl
@[simp] theorem loadRun_decState : (loadRun r s).decState = s.decState := rfl
@[simp] theorem loadRun_decIdx : (loadRun r s).decIdx = BitVec.ofNat 8 r.idx := rfl
@[simp] theorem loadRun_decNbits : (loadRun r s).decNbits = BitVec.ofNat 6 r.nbits := rfl
@[simp] theorem loadRun_data : (loadRun r s).data = r.data := rfl
@[simp] theorem loadRun_err : (loadRun r s).err = s.err := rfl
@[simp] theorem loadRun_reading : (loadRun r s).reading = s.reading := rfl
@[simp] theorem loadRun_cfg : (loadRun r s).cfg = s.cfg := rfl
@[simp] theorem loadRun_pending : (loadRun r s).pending = s.pending := rfl
@[simp] theorem loadRun_answers : (loadRun r s).answers = s.answers := rfl
@[simp] theorem loadRun_calls : (loadRun r s).calls = s.calls := rfl
@[simp] theorem loadRun_response : (loadRun r s).response = s.response := rfl
@[simp] theorem loadRun_draws : (loadRun r s).draws = s.draws := rfl
@[simp] theorem loadRun_sampleAt (i : Nat) : (loadRun r s).sampleAt i = s.sampleAt i := rfl
end

section
variable (r : Reading)
@[simp] theorem deliver_count : (deliver r s).count = s.count := rfl
@[simp] theorem deliver_lastLevel : (deliver r s).lastLevel = s.lastLevel := rfl
@[simp] theorem deliver_lastTime : (deliver r s).lastTime = s.lastTime := rfl
@[simp] theorem deliver_store : (deliver r s).store = s.store := rfl
@[simp] theorem deliver_cbEn : (deliver r s).cbEn = s.cbEn := rfl
@[simp] theorem deliver_seqState : (deliver r s).seqState = s.seqState := rfl
@[simp] theorem deliver_seqPin : (deliver r s).seqPin = s.seqPin := rfl
@[simp] theorem deliver_seqT0 : (deliver r s).seqT0 = s.seqT0 := rfl
@[simp] theorem deliver_pinClaimed : (deliver r s).pinClaimed = s.pinClaimed := rfl
@[simp] theorem deliver_pinOe : (deliver r s).pinOe = s.pinOe := rfl
@[simp] theorem deliver_pinO : (deliver r s).pinO = s.pinO := rfl
@[simp] theorem deliver_decState : (deliver r s).decState = .done := rfl
@[simp] theorem deliver_decIdx : (deliver r s).decIdx = s.decIdx := rfl
@[simp] theorem deliver_decNbits : (deliver r s).decNbits = s.decNbits := rfl
@[simp] theorem deliver_data : (deliver r s).data = s.data := rfl
@[simp] theorem deliver_err : (deliver r s).err = .none := rfl
@[simp] theorem deliver_reading : (deliver r s).reading = some r := rfl
@[simp] theorem deliver_cfg : (deliver r s).cfg = s.cfg := rfl
@[simp] theorem deliver_pending : (deliver r s).pending = s.pending := rfl
@[simp] theorem deliver_answers : (deliver r s).answers = s.answers := rfl
@[simp] theorem deliver_calls : (deliver r s).calls = s.calls := rfl
@[simp] theorem deliver_response : (deliver r s).response = s.response := rfl
@[simp] theorem deliver_draws : (deliver r s).draws = s.draws := rfl
@[simp] theorem deliver_sampleAt (i : Nat) : (deliver r s).sampleAt i = s.sampleAt i := rfl
end

/-- The sample read at an index depends on the store alone. -/
theorem sampleAt_congr {s t : State} (h : s.store = t.store) (i : Nat) : s.sampleAt i = t.sampleAt i := by
  simp [State.sampleAt, h]

end Sys2Proof.Machine
end

