-- ==== Sys2Proof/Laws/Decoder.lean ====
section
/-! SUPPORT. What each function of the Protocol Decoder can do, said once. -/

namespace Sys2Proof.Machine

/-- The scan stops within its bounds, skips only short samples, and stops early only at a long one. -/
theorem scanFrom_spec (tAck : Nat) (rd : Nat → Sample) (left i : Nat) :
    i ≤ scanFrom tAck rd left i ∧ scanFrom tAck rd left i ≤ i + left ∧
    (∀ k, i ≤ k → k < scanFrom tAck rd left i → (rd k).duration.toNat < tAck) ∧
    (scanFrom tAck rd left i < i + left → tAck ≤ (rd (scanFrom tAck rd left i)).duration.toNat) := by
  induction left generalizing i with
  | zero => exact ⟨le_rfl, le_rfl, fun k h1 h2 => absurd (h1.trans_lt h2) (lt_irrefl _), fun h => absurd h (lt_irrefl _)⟩
  | succ left ih =>
    unfold scanFrom
    split
    · next h =>
      have hl : tAck ≤ (rd i).duration.toNat := by simpa [isLong] using h
      exact ⟨le_rfl, by omega, fun k h1 h2 => absurd (h1.trans_lt h2) (lt_irrefl _), fun _ => hl⟩
    · next h =>
      have hs : (rd i).duration.toNat < tAck := by simpa [isLong] using h
      obtain ⟨h1, h2, h3, h4⟩ := ih (i + 1)
      refine ⟨by omega, by omega, fun k hk hk' => ?_, fun hlt => h4 (by omega)⟩
      rcases Nat.eq_or_lt_of_le hk with rfl | hk
      · exact hs
      · exact h3 k hk hk'

/-- The validation as its four conditions (42_protocol_decoder.md R194). -/
theorem ackValid_iff (tHalf : Nat) (rd : Nat → Sample) (n i : Nat) :
    ackValid tHalf rd n i = true ↔
      i + 3 < n ∧ (rd i).level = .low ∧ tHalf < (rd (i + 2)).duration.toNat ∧ tHalf < (rd (i + 3)).duration.toNat := by
  simp [ackValid, isHalf, and_assoc]

/-- Shifting a bit into byte `k` of a payload changes that byte only. -/
theorem shiftIn_byte (p : Payload) {k : Nat} (b : Bool) (hk : k < 5) (j : Nat) :
    payloadByte (p.shiftIn k b) j =
      if j = k then (payloadByte p k <<< 1) ||| (if b then 1 else 0) else payloadByte p j := by
  rcases j with _ | _ | _ | _ | _ | j <;> interval_cases k <;> simp [Payload.shiftIn, payloadByte]

/-- One bit more doubles the number and adds the bit. -/
theorem bitsNumber_concat (l : List Bool) (b : Bool) :
    bitsNumber (l ++ [b]) = 2 * bitsNumber l + (if b then 1 else 0) := by
  induction l with
  | nil => cases b <;> rfl
  | cons a l ih =>
    simp only [List.cons_append, bitsNumber, ih, List.length_append, List.length_singleton, Nat.pow_succ]
    split <;> omega

/-- One sample moves the index by one and adds at most one bit. -/
theorem takeSample_cases (tBit : Nat) (v : Sample) (r : BitRun) :
    (v.level = .low ∧ takeSample tBit v r = { r with idx := r.idx + 1 }) ∨
    (v.level = .high ∧
      takeSample tBit v r = ⟨r.data.shiftIn (r.nbits / 8) (bitOf tBit v), r.nbits + 1, r.idx + 1⟩) := by
  cases h : v.level
  · exact .inl ⟨rfl, by simp [takeSample, h]⟩
  · exact .inr ⟨rfl, by simp [takeSample, h]⟩

@[simp] theorem takeSample_idx (tBit : Nat) (v : Sample) (r : BitRun) : (takeSample tBit v r).idx = r.idx + 1 := by
  rcases takeSample_cases tBit v r with ⟨_, h⟩ | ⟨_, h⟩ <;> simp [h]

/-- Step 4 never passes the last bit or the end of the samples, and stops short of the end only at the last bit. -/
theorem extractFrom_bounds (bits tBit : Nat) (rd : Nat → Sample) (left : Nat) (r : BitRun) (hr : r.nbits ≤ bits) :
    (extractFrom bits tBit rd left r).nbits ≤ bits ∧ r.idx ≤ (extractFrom bits tBit rd left r).idx ∧
    (extractFrom bits tBit rd left r).idx ≤ r.idx + left ∧
    ((extractFrom bits tBit rd left r).nbits < bits → (extractFrom bits tBit rd left r).idx = r.idx + left) := by
  induction left generalizing r with
  | zero => exact ⟨hr, le_rfl, le_rfl, fun _ => rfl⟩
  | succ left ih =>
    unfold extractFrom
    split
    · next h => exact ⟨hr, le_rfl, by omega, fun h' => by omega⟩
    · next h =>
      have hn : (takeSample tBit (rd r.idx) r).nbits ≤ bits := by
        rcases takeSample_cases tBit (rd r.idx) r with ⟨_, e⟩ | ⟨_, e⟩ <;> simp only [e] <;> omega
      obtain ⟨h1, h2, h3, h4⟩ := ih _ hn
      rw [takeSample_idx] at h2 h3 h4
      exact ⟨h1, by omega, by omega, fun h' => by rw [h4 h']; omega⟩

/-- Step 4 reads only the samples it is given. -/
theorem extractFrom_congr (bits tBit : Nat) {rd rd' : Nat → Sample} (left : Nat) (r : BitRun)
    (h : ∀ k, r.idx ≤ k → k < r.idx + left → rd k = rd' k) :
    extractFrom bits tBit rd left r = extractFrom bits tBit rd' left r := by
  induction left generalizing r with
  | zero => rfl
  | succ left ih =>
    unfold extractFrom
    rw [h r.idx le_rfl (by omega)]
    split
    · rfl
    · exact ih _ fun k h1 h2 => h k (by simp at h1; omega) (by simp at h2; omega)

/-- The scan reads only the samples it is given. -/
theorem scanFrom_congr (tAck : Nat) {rd rd' : Nat → Sample} (left i : Nat)
    (h : ∀ k, i ≤ k → k < i + left → rd k = rd' k) : scanFrom tAck rd left i = scanFrom tAck rd' left i := by
  induction left generalizing i with
  | zero => rfl
  | succ left ih =>
    unfold scanFrom
    rw [h i le_rfl (by omega), ih (i + 1) fun k h1 h2 => h k (by omega) (by omega)]

/-- The verdict on a payload: checksum first, then the all-zero test, then a reading. -/
theorem judge_cases (s : State) :
    (checksumMatches s.data = false ∧ judge s = raiseFail true .checksumMismatch s) ∨
    (checksumMatches s.data = true ∧ allZero s.data = true ∧ judge s = raiseFail true .allZeroPayload s) ∨
    (checksumMatches s.data = true ∧ allZero s.data = false ∧ judge s = deliver (readingOf s.data) s) := by
  unfold judge
  cases checksumMatches s.data <;> cases allZero s.data <;> simp

/-- Steps 4 to 8 either run out of samples or judge the `PAYLOAD_BITS` bits recovered. -/
theorem decodePayload_cases (n i : Nat) (s : State) :
    let r := extractFrom s.cfg.payloadBits s.cfg.tBit s.sampleAt (n - (i + 4)) ⟨Payload.zero, 0, i + 4⟩
    (r.nbits < s.cfg.payloadBits ∧ decodePayload n i s = raiseFail true .insufficientData (loadRun r s)) ∨
    (r.nbits = s.cfg.payloadBits ∧ decodePayload n i s = judge (loadRun r s)) := by
  intro r
  have hb := (extractFrom_bounds s.cfg.payloadBits s.cfg.tBit s.sampleAt (n - (i + 4)) ⟨Payload.zero, 0, i + 4⟩ (by simp)).1
  by_cases h : r.nbits < s.cfg.payloadBits
  · exact .inl ⟨h, if_pos h⟩
  · exact .inr ⟨le_antisymm hb (Nat.not_lt.mp h), if_neg h⟩

/-- DECODE ends at the first failing one of steps 1, 2, 3, or goes on to the payload (42_protocol_decoder.md R204). -/
theorem decodeBuffer_cases (s : State) :
    let i := scanFrom s.cfg.tAck s.sampleAt s.count.samples 0
    let s' := { s with decIdx := BitVec.ofNat 8 i }
    (s.count.toInt < s.cfg.minEdges ∧ decodeBuffer s = raiseFail true .insufficientData s) ∨
    ((s.cfg.minEdges : Int) ≤ s.count.toInt ∧ i = s.count.samples ∧
      decodeBuffer s = raiseFail true .noAcknowledgement s') ∨
    ((s.cfg.minEdges : Int) ≤ s.count.toInt ∧ i ≠ s.count.samples ∧
      ackValid s.cfg.tHalf s.sampleAt s.count.samples i = false ∧
      decodeBuffer s = raiseFail true .malformedAcknowledgement s') ∨
    ((s.cfg.minEdges : Int) ≤ s.count.toInt ∧ i ≠ s.count.samples ∧
      ackValid s.cfg.tHalf s.sampleAt s.count.samples i = true ∧
      decodeBuffer s = decodePayload s.count.samples i s') := by
  intro i s'
  have hsame : s'.sampleAt = s.sampleAt := rfl
  by_cases h1 : s.count.toInt < s.cfg.minEdges
  · exact .inl ⟨h1, if_pos h1⟩
  · refine .inr ?_
    have e : decodeBuffer s =
        if i = s.count.samples then raiseFail true .noAcknowledgement s'
        else if !ackValid s.cfg.tHalf s.sampleAt s.count.samples i then raiseFail true .malformedAcknowledgement s'
        else decodePayload s.count.samples i s' := if_neg h1
    rw [e]
    by_cases h2 : i = s.count.samples
    · exact .inl ⟨not_lt.mp h1, h2, if_pos h2⟩
    · refine .inr ?_
      rw [if_neg h2]
      cases h3 : ackValid s.cfg.tHalf s.sampleAt s.count.samples i
      · exact .inl ⟨not_lt.mp h1, h2, rfl, rfl⟩
      · exact .inr ⟨not_lt.mp h1, h2, rfl, rfl⟩

end Sys2Proof.Machine
end

