-- ==== Sys2Proof/Laws/Memory.lean ====
section
/-! SUPPORT. The sample store: reading after writing, and the canonical form every operation keeps. -/

namespace Sys2Proof.Machine

@[simp] theorem memRead_nil (i : Nat) : memRead [] i = none := rfl

/-- A write is read back at its index, whatever the list. -/
@[simp] theorem memRead_memWrite_same (m : Store) (i : Nat) (v : Sample) : memRead (memWrite m i v) i = some v := by
  induction m with
  | nil => simp [memWrite, memRead]
  | cons e m ih =>
    obtain ⟨j, w⟩ := e
    rcases lt_trichotomy i j with h | h | h
    · simp [memWrite, memRead, h]
    · simp [memWrite, memRead, h]
    · simp [memWrite, memRead, Nat.not_lt.mpr h.le, h.ne', ih]

/-- A write leaves every other index alone. -/
theorem memRead_memWrite_other (m : Store) {i k : Nat} (v : Sample) (hk : k ≠ i) :
    memRead (memWrite m i v) k = memRead m k := by
  induction m with
  | nil => simp [memWrite, memRead, hk]
  | cons e m ih =>
    obtain ⟨j, w⟩ := e
    rcases lt_trichotomy i j with h | h | h
    · simp [memWrite, memRead, h, hk]
    · subst h; simp [memWrite, memRead, hk]
    · simp [memWrite, memRead, Nat.not_lt.mpr h.le, h.ne', ih]

/-- The indices of a written store are the written one and those it had. -/
theorem mem_memWrite {m : Store} {i : Nat} {v : Sample} {e : Nat × Sample} (h : e ∈ memWrite m i v) :
    e = (i, v) ∨ e ∈ m := by
  induction m with
  | nil => simpa [memWrite] using h
  | cons f m ih =>
    obtain ⟨j, w⟩ := f
    unfold memWrite at h
    split at h
    · simpa using h
    · split at h
      · rcases List.mem_cons.mp h with h | h
        · exact .inl h
        · exact .inr (List.mem_cons_of_mem _ h)
      · rcases List.mem_cons.mp h with h | h
        · exact .inr (h ▸ List.mem_cons_self)
        · exact (ih h).imp_right (List.mem_cons_of_mem _)

/-- A write keeps the indices strictly rising. -/
theorem memWrite_rising {m : Store} (i : Nat) (v : Sample) (h : m.Pairwise (fun a b => a.1 < b.1)) :
    (memWrite m i v).Pairwise (fun a b => a.1 < b.1) := by
  induction m with
  | nil => simp [memWrite]
  | cons f m ih =>
    obtain ⟨j, w⟩ := f
    obtain ⟨hj, hm⟩ := List.pairwise_cons.mp h
    unfold memWrite
    split
    · next hij =>
      refine List.pairwise_cons.mpr ⟨fun e he => ?_, h⟩
      rcases List.mem_cons.mp he with rfl | he
      · exact hij
      · exact hij.trans (hj e he)
    · next hij =>
      split
      · next he => subst he; exact List.pairwise_cons.mpr ⟨hj, hm⟩
      · next hne =>
        refine List.pairwise_cons.mpr ⟨fun e he => ?_, ih hm⟩
        rcases mem_memWrite he with rfl | he
        · exact lt_of_le_of_ne (Nat.not_lt.mp hij) (Ne.symm hne)
        · exact hj e he

/-- A write below `CAPACITY` keeps the canonical form. -/
theorem memWrite_wf {capacity : Nat} {m : Store} {i : Nat} (v : Sample) (hi : i < capacity) (h : Memory.wf capacity m) :
    Memory.wf capacity (memWrite m i v) := by
  refine ⟨memWrite_rising i v h.1, fun e he => ?_⟩
  rcases mem_memWrite he with rfl | he
  · exact hi
  · exact h.2 e he

/-- The store of the reset state is in canonical form. -/
theorem reset_memory_wf (c : Config) : Memory.wf c.capacity (State.resetWith c).store :=
  ⟨List.Pairwise.nil, fun _ he => nomatch he⟩

/-- What `sample[k]` is after a sample is stored at index `n`: the new one at `n`, the old one elsewhere. -/
theorem storeSample_sampleAt (n : Nat) (l : Level) (t : Micros) (s : State) (k : Nat) :
    (storeSample n l t s).sampleAt k =
      if k = n then ⟨elapsed t s.lastTime, storedLevel s.cfg.levelSense s.lastLevel l⟩ else s.sampleAt k := by
  split
  · next h => subst h; simp [State.sampleAt, storeSample]
  · next h => simp [State.sampleAt, storeSample, memRead_memWrite_other _ _ h]

end Sys2Proof.Machine
end

