-- ==== Sys2Proof/Laws/Ops.lean ====
section
/-! SUPPORT. What each shared operation can do, said once: the provers cite these and do not unfold the operations. -/

namespace Sys2Proof.Machine

/-- EDGE behind an open gate takes exactly one of the source's steps 2 to 5. -/
theorem acceptEdge_cases (l : Level) (t : Micros) (s : State) :
    (s.lastLevel = some l ∧ acceptEdge l t s = s) ∨
    (s.lastLevel ≠ some l ∧ s.count = .waiting ∧ acceptEdge l t s = acceptArmingEdge l t s) ∨
    (∃ n, s.lastLevel ≠ some l ∧ s.count = .stored n ∧ n < s.cfg.capacity ∧ acceptEdge l t s = storeSample n l t s) ∨
    (∃ n, s.lastLevel ≠ some l ∧ s.count = .stored n ∧ s.cfg.capacity ≤ n ∧ acceptEdge l t s = s) := by
  by_cases hd : s.lastLevel = some l
  · exact .inl ⟨hd, by simp [acceptEdge, isDuplicate, hd]⟩
  · cases hc : s.count with
    | waiting => exact .inr (.inl ⟨hd, rfl, by simp [acceptEdge, isDuplicate, hd, hc]⟩)
    | stored n =>
      by_cases hn : n < s.cfg.capacity
      · exact .inr (.inr (.inl ⟨n, hd, rfl, hn, by simp [acceptEdge, isDuplicate, hd, hc, hn]⟩))
      · exact .inr (.inr (.inr ⟨n, hd, rfl, Nat.not_lt.mp hn, by simp [acceptEdge, isDuplicate, hd, hc, hn]⟩))

/-- Abort unregisters the callback if the gate is open, releases the pin, and leaves the failure. -/
theorem abort_eq (s : State) :
    abort s =
      { s with
        cbEn := false
        pinClaimed := false
        pinOe := false
        seqState := .failed
        err := .hardwareAcquisitionFailure
        reading := none
        calls := s.calls ++ ((if s.cbEn then [DrvCall.offTransition s.seqPin] else []) ++ [.release s.seqPin]) } := by
  cases h : s.cbEn <;> simp [abort, unregister, raiseFail, callDriver, closeGate, h]

/-- START from the direction switch on either aborts or drives the line low. -/
theorem driveLow_cases (p : PinNum) (t : Micros) (s : State) :
    (s.answers.setDirection = .fail ∧ driveLow p t s = abort (callDriver (.setDirection p .output .fail) s)) ∨
    (s.answers.setDirection = .ok ∧
      driveLow p t s =
        { callDriver (.write p .low) { callDriver (.setDirection p .output .ok) s with pinOe := true } with
          pinO := .low, seqT0 := t, seqState := .lowHold }) := by
  cases h : s.answers.setDirection
  · exact .inr ⟨rfl, by simp [driveLow, h]⟩
  · exact .inl ⟨rfl, by simp [driveLow, h]⟩

/-- START after the claim either aborts, the callback being refused, or goes on with the gate open. -/
theorem registerCallback_cases (p : PinNum) (t : Micros) (s : State) :
    (s.answers.onTransition = .fail ∧
      registerCallback p t s = abort (callDriver (.onTransition p .fail) (armBuffer { s with pinClaimed := true }))) ∨
    (s.answers.onTransition = .ok ∧
      registerCallback p t s =
        driveLow p t (openGate (callDriver (.onTransition p .ok) (armBuffer { s with pinClaimed := true })))) := by
  cases h : s.answers.onTransition
  · exact .inr ⟨rfl, by simp [registerCallback, h]⟩
  · exact .inl ⟨rfl, by simp [registerCallback, h]⟩

/-- START of an admissible pin in a resting state either fails at the claim or goes on. -/
theorem startSession_cases (p : PinNum) (t : Micros) (s : State) :
    (s.answers.claim = .fail ∧
      startSession p t s =
        raiseFail false .hardwareAcquisitionFailure
          { callDriver (.claim p .fail) (openSession p s) with seqState := .failed }) ∨
    (s.answers.claim = .ok ∧
      startSession p t s = registerCallback p t (callDriver (.claim p .ok) (openSession p s))) := by
  cases h : s.answers.claim
  · exact .inr ⟨rfl, by simp [startSession, h]⟩
  · exact .inl ⟨rfl, by simp [startSession, h]⟩

/-- The end of `SETTLE` either aborts or hands the line over. -/
theorem handOver_cases (t : Micros) (s : State) :
    (s.answers.setDirection = .fail ∧ handOver t s = abort (callDriver (.setDirection s.seqPin .input .fail) s)) ∨
    (s.answers.setDirection = .ok ∧
      handOver t s =
        { callDriver (.setDirection s.seqPin .input .ok) s with pinOe := false, seqT0 := t, seqState := .observe }) := by
  cases h : s.answers.setDirection
  · exact .inr ⟨rfl, by simp [handOver, h]⟩
  · exact .inl ⟨rfl, by simp [handOver, h]⟩

/-- The end of `OBSERVE`, as one update. -/
theorem endCapture_eq (s : State) :
    endCapture s =
      { s with
        cbEn := false
        pinClaimed := false
        seqState := .done
        calls := s.calls ++ [.offTransition s.seqPin, .release s.seqPin] } := by
  simp [endCapture, callDriver, closeGate]

/-- A TICK makes one of the three transitions, or, its interval not having passed or the state resting, none. -/
theorem advance_cases (t : Micros) (s : State) :
    (s.seqState = .lowHold ∧ s.cfg.tLow ≤ (elapsed t s.seqT0).toNat ∧ advance t s = releaseHigh t s) ∨
    (s.seqState = .settle ∧ s.cfg.tSettle ≤ (elapsed t s.seqT0).toNat ∧ advance t s = handOver t s) ∨
    (s.seqState = .observe ∧ s.cfg.tWindow ≤ (elapsed t s.seqT0).toNat ∧ advance t s = endCapture s) ∨
    ((s.seqState = .lowHold → (elapsed t s.seqT0).toNat < s.cfg.tLow) ∧
      (s.seqState = .settle → (elapsed t s.seqT0).toNat < s.cfg.tSettle) ∧
      (s.seqState = .observe → (elapsed t s.seqT0).toNat < s.cfg.tWindow) ∧ advance t s = s) := by
  unfold advance
  split <;> (try split_ifs) <;> simp_all

/-- What a step does with the head of `pending`. -/
theorem fetch_cases (s : State) :
    (s.pending = [] ∧ fetch s = .idle) ∨
    (∃ rest, s.pending = .reset :: rest ∧ fetch s = .reset { s with pending := rest }) ∨
    (∃ o rest, s.pending = .op o :: rest ∧ fetch s = receive o { s with pending := rest }) := by
  unfold fetch
  split <;> simp_all

/-- An issued word runs as the operation it decodes to, from that operation's own context; else it is refused. -/
theorem receive_cases (o : Issued) (s : State) :
    (∃ why, decode o.word = .error why ∧ receive o s = .refuse (.reservedEncoding why)) ∨
    (∃ i, decode o.word = .ok i ∧ o.issuer = i.context ∧ receive o s = .run i { s with answers := o.answers }) ∨
    (∃ i, decode o.word = .ok i ∧ o.issuer ≠ i.context ∧ receive o s = .refuse (.wrongContext o.issuer)) := by
  unfold receive
  split
  · simp_all
  · split_ifs <;> simp_all

/-- If a step answers a next state, nothing was pending, or the reset event happened, or an operation ran. -/
theorem step_next_cases {s t : State} (h : step s = .next t) :
    (s.pending = [] ∧ t = s) ∨
    (∃ rest, s.pending = .reset :: rest ∧ t = resetEvent { s with pending := rest }) ∨
    (∃ o rest i, s.pending = .op o :: rest ∧ decode o.word = .ok i ∧ o.issuer = i.context ∧
      exec i { s with pending := rest, answers := o.answers } = .next t) := by
  unfold step at h
  rcases fetch_cases s with ⟨hp, hf⟩ | ⟨rest, hp, hf⟩ | ⟨o, rest, hp, hf⟩
  · rw [hf] at h; exact .inl ⟨hp, (Host.Outcome.next.inj h).symm⟩
  · rw [hf] at h; exact .inr (.inl ⟨rest, hp, (Host.Outcome.next.inj h).symm⟩)
  · rcases receive_cases o { s with pending := rest } with ⟨_, _, ha⟩ | ⟨i, hd, hc, ha⟩ | ⟨_, _, _, ha⟩
    · rw [hf, ha] at h; cases h
    · rw [hf, ha] at h; exact .inr (.inr ⟨o, rest, i, hp, hd, hc, h⟩)
    · rw [hf, ha] at h; cases h

end Sys2Proof.Machine
end

