-- ==== Sys2Proof/Laws/PerInstr.lean ====
section
/-! SUPPORT. A statement about every operation as syntax, one lemma per constructor: the word of the operation matches
the operation's own row of the opcode map (30_encoding.md R97). -/

namespace Sys2Proof.Laws

open Sys2Proof.Machine

/-- The place of an operation's row in the opcode map. -/
def rowIndex : Instr → Nat
  | .arm => 0
  | .enable => 1
  | .edge _ _ => 2
  | .disarm => 3
  | .rdcnt => 4
  | .rdsmp _ => 5
  | .start _ _ => 6
  | .tick _ => 7
  | .decode => 8
  | .rdres => 9

/-- Masking the word of `i` with the mask of its row gives the match of its row (30_encoding.md R97). -/
def EncodingRow.Statement (i : Instr) : Prop :=
  ∃ r, opcodeRows[rowIndex i]? = some r ∧ encode i &&& r.2 = r.1

theorem EncodingRow.arm : EncodingRow.Statement .arm := ⟨_, rfl, by decide⟩

theorem EncodingRow.enable : EncodingRow.Statement .enable := ⟨_, rfl, by decide⟩

theorem EncodingRow.edge (level : Level) (now : Micros) : EncodingRow.Statement (.edge level now) := by
  refine ⟨_, rfl, BitVec.eq_of_getLsbD_eq fun j hj => ?_⟩
  cases level <;> simp only [encode, Level.bit, BitVec.getLsbD_and, BitVec.getLsbD_append] <;>
    interval_cases j <;> simp

theorem EncodingRow.disarm : EncodingRow.Statement .disarm := ⟨_, rfl, by decide⟩

theorem EncodingRow.rdcnt : EncodingRow.Statement .rdcnt := ⟨_, rfl, by decide⟩

theorem EncodingRow.rdsmp (idx : BitVec 8) : EncodingRow.Statement (.rdsmp idx) := by
  refine ⟨_, rfl, BitVec.eq_of_getLsbD_eq fun j hj => ?_⟩
  simp only [encode, BitVec.getLsbD_and, BitVec.getLsbD_append]
  interval_cases j <;> simp

theorem EncodingRow.start (pin : PinNum) (now : Micros) : EncodingRow.Statement (.start pin now) := by
  refine ⟨_, rfl, BitVec.eq_of_getLsbD_eq fun j hj => ?_⟩
  simp only [encode, BitVec.getLsbD_and, BitVec.getLsbD_append]
  interval_cases j <;> simp

theorem EncodingRow.tick (now : Micros) : EncodingRow.Statement (.tick now) := by
  refine ⟨_, rfl, BitVec.eq_of_getLsbD_eq fun j hj => ?_⟩
  simp only [encode, BitVec.getLsbD_and, BitVec.getLsbD_append]
  interval_cases j <;> simp

theorem EncodingRow.decode : EncodingRow.Statement .decode := ⟨_, rfl, by decide⟩

theorem EncodingRow.rdres : EncodingRow.Statement .rdres := ⟨_, rfl, by decide⟩

end Sys2Proof.Laws
end

