-- ==== Sys2Proof/Tests/Slice0.lean ====
section
/-! SUPPORT. Tests whose expected values come from the words and vectors of 95_test_vectors.md (their names are in the
docstrings), the smoke test of the checks, and one witness for every statement that has hypotheses. -/

namespace Sys2Proof.Tests

open Sys2Proof.Machine

/-! ## The checks -/

theorem smoke_default_config : ({} : Config).WellFormed := by decide

theorem smoke_capacity_one : ({ capacity := 1 } : Config).WellFormed := by decide

/-- 00_scope.md R6: `1 <= CAPACITY`. -/
theorem smoke_capacity_zero : ¬({ capacity := 0 } : Config).WellFormed := by decide

/-- 00_scope.md R6: `CAPACITY <= 255`. -/
theorem smoke_capacity_256 : ¬({ capacity := 256 } : Config).WellFormed := by decide

/-- 00_scope.md R6: the three widths, the last of them on both sides. -/
theorem smoke_widths :
    ¬({ payloadBits := 48 } : Config).WellFormed ∧ ¬({ timeBits := 16 } : Config).WellFormed ∧
    ¬({ pinBits := 7 } : Config).WellFormed ∧ ¬({ pinBits := 9 } : Config).WellFormed := by decide

/-- 00_scope.md R6: `PIN_MAX < 2^PIN_BITS`. -/
theorem smoke_pin_max : ¬({ pinMax := 256 } : Config).WellFormed ∧ ({ pinMax := 0 } : Config).WellFormed := by decide

/-- 00_scope.md R6: every time threshold fits in `TIME_BITS` bits. -/
theorem smoke_thresholds :
    ({ tWindow := 4294967295 } : Config).WellFormed ∧
    ∀ c ∈ ([{ tAck := 4294967296 }, { tHalf := 4294967296 }, { tBit := 4294967296 }, { tLow := 4294967296 },
      { tSettle := 4294967296 }, { tWindow := 4294967296 }] : List Config), ¬c.WellFormed := by decide

/-- 30_encoding.md R99, with the figures of V-Q3. -/
theorem smoke_pin : ¬Instr.Admissible { pinMax := 27 } (.start 28 0) ∧ Instr.Admissible { pinMax := 27 } (.start 27 0) :=
  by decide

/-- 30_encoding.md R99, V-E19. -/
theorem smoke_idx : ¬Instr.Admissible {} (.rdsmp 200) ∧ Instr.Admissible {} (.rdsmp 199) := by decide

theorem smoke_memory_order : ¬Memory.wf 200 [(1, ⟨1, .low⟩), (0, ⟨1, .low⟩)] := by decide

theorem smoke_memory_range : ¬Memory.wf 200 [(200, ⟨1, .low⟩)] := by decide

theorem smoke_memory_reset : Memory.wf State.reset.cfg.capacity State.reset.store := by decide

/-! ## Encoding: the words of V-E1 to V-E19 -/

theorem test_decode_arm : decode 0x100000000000 = .ok .arm := by decide

theorem test_decode_enable : decode 0x200000000000 = .ok .enable := by decide

theorem test_decode_edge_high : decode 0x300100000BB8 = .ok (.edge .high 3000) := by decide

theorem test_decode_edge_low : decode 0x3000FFFFFFFF = .ok (.edge .low 0xFFFFFFFF) := by decide

theorem test_decode_disarm : decode 0x400000000000 = .ok .disarm := by decide

theorem test_decode_rdcnt : decode 0x500000000000 = .ok .rdcnt := by decide

theorem test_decode_rdsmp : decode 0x6000000000C7 = .ok (.rdsmp 199) := by decide

theorem test_decode_start : decode 0x7004000003E8 = .ok (.start 4 1000) := by decide

theorem test_decode_tick : decode 0x80000001926C = .ok (.tick 103020) := by decide

theorem test_decode_decode : decode 0x900000000000 = .ok .decode := by decide

theorem test_decode_rdres : decode 0xA00000000000 = .ok .rdres := by decide

/-- V-E12, V-E13. -/
theorem test_reserved_opcodes :
    decode 0x000000000000 = .error (.reservedOpcode 0x0) ∧ decode 0xB00000000000 = .error (.reservedOpcode 0xB) := by
  decide

/-- V-E14 to V-E18. -/
theorem test_must_be_zero :
    decode 0x100000000001 = .error (.mustBeZero "ARM") ∧ decode 0x300200000000 = .error (.mustBeZero "EDGE") ∧
    decode 0x600000000100 = .error (.mustBeZero "RDSMP") ∧ decode 0x800100000000 = .error (.mustBeZero "TICK") ∧
    decode 0x710000000000 = .error (.mustBeZero "START") := by
  decide

/-- V-E19. -/
theorem test_inadmissible_word_decodes : decode 0x6000000000C8 = .ok (.rdsmp 200) := by decide

theorem test_encode :
    encode (.edge .high 3000) = 0x300100000BB8 ∧ encode (.rdsmp 199) = 0x6000000000C7 ∧
    encode (.start 4 1000) = 0x7004000003E8 ∧ encode (.tick 103020) = 0x80000001926C := by
  decide

theorem test_table_word :
    decodeTableWord 48 0x7004000003E8 = some (.start 4 1000) ∧ decodeTableWord 48 0xB00000000000 = none := by decide

theorem test_fetch_word_start :
    step (State.reset.withFetchWord 48 0x7004000003E8) = exec (.start 4 1000) State.reset := rfl

/-- EDGE is issued by the callback. -/
theorem test_fetch_word_edge :
    step (State.reset.withFetchWord 48 0x300100000BB8) = exec (.edge .high 3000) State.reset := rfl

/-! ## One step each -/

/-- The next state of a step that has one, for tests on its fields. -/
def after (o : Host.Outcome State Fault Refusal) : Option State :=
  match o with
  | .next t => some t
  | .fault _ => none
  | .refused _ => none

/-- The samples given, at indices from `i` on. -/
def indexed : Nat → List Sample → Store
  | _, [] => []
  | i, v :: l => (i, v) :: indexed (i + 1) l

/-- A finished capture of the samples given, the gate closed (start state of section 2.4). -/
def captured (l : List Sample) : State :=
  { State.reset with
    count := .stored l.length, lastLevel := some .low, store := indexed 0 l, seqState := .done }

/-- The start state of V-C5 and V-C6. -/
def twoSamples : State :=
  { captured [⟨100, .high⟩, ⟨100, .low⟩] with cbEn := true, lastTime := 300, seqState := .idle }

/-- A session in the sequencer state given, with `seq_t0 = 1000` (V-Q1, V-Q7). -/
def session (q : SeqState) : State :=
  { State.reset with seqState := q, seqPin := 4, seqT0 := 1000, cbEn := true, pinClaimed := true }

/-- The standard buffer of a payload (95_test_vectors.md section 3). -/
def standard (p : Payload) : State := captured ((List.range 85).map (standardSample p))

/-- The payload of scenario 1. -/
def scenario1 : Payload := ⟨0x32, 0x00, 0x1B, 0x00, 0x4D⟩

/-- The payload of scenario 3. -/
def scenario3 : Payload := ⟨0x02, 0x8C, 0x81, 0x90, 0x9F⟩

/-- V-C5, first row. -/
theorem test_arm : (after (exec .arm twoSamples)).map (fun t => (t.count, t.lastLevel, t.lastTime, t.cbEn)) =
    some (.waiting, none, 300, true) := by decide

/-- V-C2, third row. -/
theorem test_enable : (after (exec .enable State.reset)).map (·.cbEn) = some true := by decide

/-- V-C6, last row, under AFTER. -/
theorem test_edge_stores : (after (exec (.edge .high 900) twoSamples)).map (fun t => (t.count, memRead t.store 2)) =
    some (.stored 3, some ⟨600, .high⟩) := by decide

/-- V-C3: one wrap of the clock, under BEFORE. -/
theorem test_edge_wraps :
    (after (exec (.edge .high 16) { twoSamples with
      count := .stored 0, lastTime := 0xFFFFFFF0, cfg := { levelSense := .before } })).map
        (fun t => (memRead t.store 0, memRead t.store 1, t.lastTime)) =
      some (some ⟨32, .low⟩, some ⟨100, .low⟩, 16) := by decide

/-- V-C6, first row. -/
theorem test_disarm : (after (exec .disarm twoSamples)).map (fun t => (t.cbEn, t.count)) = some (false, .stored 2) :=
  by decide

/-- V-E20. -/
theorem test_rdcnt_words : countWord .waiting = 0x1FF ∧ countWord (.stored 0) = 0 ∧ countWord (.stored 200) = 0x0C8 := by
  decide

theorem test_rdcnt : (after (exec .rdcnt twoSamples)).map (·.response) = some (.count 2) := by decide

/-- V-E21. -/
theorem test_rdsmp_words : Sample.word ⟨2000, .high⟩ = 0x1000007D0 ∧ Sample.word ⟨2000, .low⟩ = 0x0000007D0 ∧
    Sample.word ⟨4294967295, .high⟩ = 0x1FFFFFFFF := by decide

theorem test_rdsmp : (after (exec (.rdsmp 0) twoSamples)).map (·.response) = some (.sample 0x100000064) := by decide

/-- V-Q1. -/
theorem test_start :
    (after (exec (.start 4 1000) State.reset)).map (fun t => ((t.seqState, t.seqPin, t.seqT0, t.cbEn), t.calls, t.response)) =
      some ((.lowHold, 4, 1000, true),
        [.claim 4 .ok, .onTransition 4 .ok, .setDirection 4 .output .ok, .write 4 .low], .start 0) := by decide

/-- V-Q5. -/
theorem test_start_fails :
    (after (exec (.start 4 1000) { State.reset with count := .stored 37, answers := { onTransition := .fail } })).map
        (fun t => ((t.seqState, t.cbEn, t.count, t.pinClaimed), t.err, t.calls, t.response)) =
      some ((.failed, false, .waiting, false), .hardwareAcquisitionFailure,
        [.claim 4 .ok, .onTransition 4 .fail, .release 4], .start 0) := by decide

/-- V-Q7, first two rows. -/
theorem test_tick :
    (after (exec (.tick 2999) (session .lowHold))).map (fun t => (t.seqState, t.seqT0)) = some (.lowHold, 1000) ∧
    (after (exec (.tick 3000) (session .lowHold))).map (fun t => (t.seqState, t.seqT0, t.calls)) =
      some (.settle, 3000, [.write 4 .high]) := by decide

/-- V-Q8, last step. -/
theorem test_tick_fails :
    (after (exec (.tick 1020) { session .settle with answers := { setDirection := .fail } })).map
        (fun t => ((t.seqState, t.seqT0, t.cbEn, t.pinClaimed), t.err, t.calls)) =
      some ((.failed, 1000, false, false), .hardwareAcquisitionFailure,
        [.setDirection 4 .input .fail, .offTransition 4, .release 4]) := by decide

/-- V-D1. -/
theorem test_decode_scenario1 :
    (after (exec .decode (standard scenario1))).map (fun t => (t.err, t.reading, t.decIdx, t.decNbits, t.data)) =
      some (.none, some ⟨.a, 500, 270⟩, 84, 40, scenario1) := by decide +kernel

/-- V-D3: a negative temperature. -/
theorem test_decode_scenario3 :
    (after (exec .decode (standard scenario3))).map (fun t => (t.err, t.reading.map (fun r => (r.kind, r.hum, r.temp.toInt)))) =
      some (.none, some (.b, 652, -400)) := by decide +kernel

/-- V-D13: 39 bits, the last byte holding seven of them; and V-D6a's point, a byte that no bit reached is 0. -/
theorem test_decode_cleared_bytes :
    (after (exec .decode (captured ((List.range 82).map (standardSample scenario1))))).map (fun t => (t.decNbits, t.data)) =
      some (39, ⟨0x32, 0x00, 0x1B, 0x00, 0x26⟩) ∧
    (after (exec .decode { captured ((List.range 24).map (standardSample scenario1)) with
      data := ⟨9, 9, 9, 9, 9⟩ })).map (fun t => (t.decNbits, t.data)) = some (10, ⟨0x32, 0, 0, 0, 0⟩) := by decide +kernel

/-- V-D1. -/
theorem test_rdres :
    (after (exec .rdres { State.reset with seqState := .done, decState := .done, reading := some ⟨.a, 500, 270⟩ })).map
      (·.response) = some (.result 0x12201F4010E) := by decide

/-- V-D5, bits 40:33 of the word; the rest are a free value. -/
theorem test_rdres_failure (low : BitVec 33) :
    (resultWord .done true .checksumMismatch false low).extractLsb' 33 8 = 0x9A := by
  refine BitVec.eq_of_getLsbD_eq fun i hi => ?_
  simp only [resultWord, BitVec.getLsbD_extractLsb', BitVec.getLsbD_append]
  interval_cases i <;> simp [SeqState.code, Err.code]

/-! ## Witnesses: states and operands that meet the hypotheses of the statements -/

/-- One operation presented. -/
def presented (c : Context) (w : OpWord) : State := { State.reset with pending := [.op ⟨c, w, {}⟩] }

theorem witness_EncodeOfDecode : decode 0x6000000000FF = .ok (.rdsmp 255) := by decide

/-- Words that match a row with operands, every operand bit set (30_encoding.md R92 to R97). -/
theorem witness_DecodeAcceptsOpcodeRows :
    (0x3001FFFFFFFF : OpWord) &&& 0xFFFE00000000 = 0x300000000000 ∧
    (0x6000000000FF : OpWord) &&& 0xFFFFFFFFFF00 = 0x600000000000 ∧
    (0x70FFFFFFFFFF : OpWord) &&& 0xFF0000000000 = 0x700000000000 ∧
    (0x8000FFFFFFFF : OpWord) &&& 0xFFFF00000000 = 0x800000000000 := by decide

theorem witness_StepRunsDecodedOperation :
    (presented .controlling 0x7004000003E8).pending = .op ⟨.controlling, 0x7004000003E8, {}⟩ :: [] ∧
    decode 0x7004000003E8 = .ok (.start 4 1000) ∧ Context.controlling = (Instr.start 4 1000).context := by decide

theorem witness_WrongContextRefused :
    ((presented .controlling 0x300100000BB8).pending = [.op ⟨.controlling, 0x300100000BB8, {}⟩] ∧
      decode 0x300100000BB8 = .ok (.edge .high 3000)) ∧
    ((presented .callback 0x900000000000).pending = [.op ⟨.callback, 0x900000000000, {}⟩] ∧
      decode 0x900000000000 = .ok .decode ∧ ∀ l t, Instr.decode ≠ .edge l t) :=
  ⟨by decide, rfl, by decide, nofun⟩

theorem witness_ReservedWordRefused :
    (presented .controlling 0x300200000000).pending = [.op ⟨.controlling, 0x300200000000, {}⟩] ∧
    ∀ r ∈ opcodeRows, (0x300200000000 : OpWord) &&& r.2 ≠ r.1 := ⟨rfl, by simp [opcodeRows]⟩

theorem witness_IdleStepChangesNothing : State.reset.pending = [] := rfl

theorem witness_ResetEventWritesTable : ({ twoSamples with pending := [.reset] } : State).pending = .reset :: [] := rfl

/-- DECODE with the gate closed, and RDSMP of the last entry. -/
theorem witness_AdmittedOperationsComplete :
    (Instr.decode = .decode → (captured []).cbEn = false) ∧
    ∀ idx, Instr.rdsmp 199 = .rdsmp idx → idx.toNat < State.reset.cfg.capacity :=
  ⟨fun _ => rfl, fun _ h => by cases h; decide⟩

theorem witness_ParametersConstant :
    step (presented .controlling 0x100000000000) = .next { State.reset with count := .waiting } := rfl

theorem witness_EdgeWithoutEffect :
    (captured []).cbEn = false ∧ twoSamples.lastLevel = some .low ∧
    ∃ n, ({ twoSamples with count := .stored 200 } : State).count = .stored n ∧ twoSamples.cfg.capacity ≤ n :=
  ⟨rfl, rfl, 200, rfl, by decide⟩

theorem witness_ArmingEdgeRecorded :
    (session .observe).cbEn = true ∧ (session .observe).lastLevel ≠ some .low ∧ (session .observe).count = .waiting := by
  decide

theorem witness_EdgeStoresSample :
    ∀ n ∈ [0, 199], ({ twoSamples with count := .stored n } : State).cbEn = true ∧ twoSamples.lastLevel = some .low ∧
      Level.low ≠ .high ∧ ({ twoSamples with count := .stored n } : State).count = .stored n ∧
      n < twoSamples.cfg.capacity := by decide

theorem witness_EdgeTouchesOnlyBuffer : ∃ t, exec (.edge .high 900) twoSamples = .next t := ⟨_, rfl⟩

theorem witness_RdcntReturnsCount :
    ∀ c ∈ [Cursor.waiting, .stored 0, .stored 255], ({ State.reset with count := c } : State).count.samples ≤ 255 := by
  decide

theorem witness_RdsmpReturnsEntry :
    ((0 : BitVec 8).toNat < twoSamples.cfg.capacity ∧ twoSamples.count = .stored 2 ∧ (1 : BitVec 8).toNat < 2) ∧
    (199 : BitVec 8).toNat < State.reset.cfg.capacity ∧
      ({ State.reset with count := .stored 200 } : State).count = .stored 200 ∧ (199 : BitVec 8).toNat < 200 := by decide

theorem witness_RdsmpOfStaleEntryRuns :
    ((0 : BitVec 8).toNat < State.reset.cfg.capacity ∧ State.reset.count.toInt ≤ (0 : BitVec 8).toNat) ∧
    (199 : BitVec 8).toNat < State.reset.cfg.capacity ∧
      ({ State.reset with count := .stored 199 } : State).count.toInt ≤ (199 : BitVec 8).toNat := by decide

theorem witness_RdsmpBeyondCapacityRefused : State.reset.cfg.capacity ≤ (200 : BitVec 8).toNat := by decide

theorem witness_StoredSamplesFinal :
    Instr.edge .high 900 ≠ .arm ∧ (∀ pin now, Instr.edge .high 900 ≠ .start pin now) ∧
    ∃ t, exec (.edge .high 900) twoSamples = .next t ∧ t.count = .stored 3 :=
  ⟨by decide, nofun, _, rfl, rfl⟩

/-- A step of each of the three kinds. -/
theorem witness_CountChangesOnlyByArmAndEdge :
    (∃ t, exec .disarm twoSamples = .next t ∧ t.count = twoSamples.count) ∧
    (∃ t, exec .arm twoSamples = .next t ∧ t.count = .waiting) ∧
    ∃ t, exec (.edge .high 900) twoSamples = .next t ∧ t.count = .stored 3 :=
  ⟨⟨_, rfl, rfl⟩, ⟨_, rfl, rfl⟩, _, rfl, rfl⟩

theorem witness_OnlyEdgeWritesStore :
    (∀ l now, Instr.decode ≠ .edge l now) ∧ ∃ t, exec .decode (captured []) = .next t := ⟨nofun, _, rfl⟩

theorem witness_DurationsTelescope :
    twoSamples.count ≠ .waiting ∧ ∃ t, exec (.edge .high 900) twoSamples = .next t ∧ t.count = .stored 3 :=
  ⟨by decide, _, rfl, rfl⟩

/-- A state with stored samples that has the invariant. -/
theorem inv_twoSamples : Inv twoSamples :=
  ⟨by decide, by decide, by decide, by decide, by decide, by decide, by decide, by decide, by decide, by decide, by decide,
    by decide, by decide⟩

theorem witness_StepKeepsInv :
    Inv { twoSamples with pending := [.op ⟨.callback, 0x300100000384, {}⟩] } ∧
    ∃ t, step { twoSamples with pending := [.op ⟨.callback, 0x300100000384, {}⟩] } = .next t ∧ t.count = .stored 3 :=
  ⟨⟨inv_twoSamples.config, inv_twoSamples.memory, inv_twoSamples.filled, inv_twoSamples.count_le, inv_twoSamples.filter,
    inv_twoSamples.claimed, inv_twoSamples.driven, inv_twoSamples.low, inv_twoSamples.high, inv_twoSamples.admissible,
    inv_twoSamples.atomic, inv_twoSamples.valid, inv_twoSamples.failure⟩, _, rfl, rfl⟩

theorem witness_ResetHasInv : ({ capacity := 1, levelSense := .before } : Config).WellFormed := by decide

theorem witness_StepKeepsLevelsAlternate : LevelsAlternate twoSamples := by
  refine ⟨fun i hi => ?_, fun n p hn hp => ?_⟩
  · obtain rfl : i = 0 := by simp [twoSamples, captured, Cursor.samples] at hi; omega
    decide
  · cases hn; cases hp; decide

theorem witness_StartRejectsBusy :
    (session .lowHold).seqState = .lowHold ∧ (session .settle).seqState = .settle ∧
    (session .observe).seqState = .observe := by decide

/-- An admissible pin at its bound in each resting state, the driver's answers as given. -/
def resting (q : SeqState) (a : DrvAnswers) : State :=
  { State.reset with seqState := q, answers := a, cfg := { pinMax := 27 } }

theorem witness_StartRejectsInvalidPin :
    ∀ q ∈ [SeqState.idle, .done, .failed], ((resting q {}).seqState = .idle ∨ (resting q {}).seqState = .done ∨
      (resting q {}).seqState = .failed) ∧ (resting q {}).cfg.pinMax < (28 : PinNum).toNat := by decide

theorem witness_StartBeginsSession :
    ∀ q ∈ [SeqState.idle, .done, .failed], ((resting q {}).seqState = .idle ∨ (resting q {}).seqState = .done ∨
      (resting q {}).seqState = .failed) ∧ (27 : PinNum).toNat ≤ (resting q {}).cfg.pinMax ∧ (resting q {}).answers = ⟨.ok, .ok, .ok⟩ := by
  decide

theorem witness_StartFailurePaths :
    ((resting .idle {}).seqState = .idle ∧ (27 : PinNum).toNat ≤ (resting .idle {}).cfg.pinMax) ∧
    (resting .idle ⟨.fail, .ok, .ok⟩).answers.claim = .fail ∧
    (resting .idle ⟨.ok, .fail, .ok⟩).answers.onTransition = .fail ∧
    (resting .idle ⟨.ok, .ok, .fail⟩).answers.setDirection = .fail := by decide

theorem witness_TickRestingDoesNothing :
    State.reset.seqState = .idle ∧ (captured []).seqState = .done ∧ (resting .failed {}).seqState = .failed := by decide

/-- One microsecond short of each interval. -/
theorem witness_TickBeforeIntervalDoesNothing :
    ((session .lowHold).seqState = .lowHold ∧ microsSince 2999 1000 < (session .lowHold).cfg.tLow) ∧
    ((session .settle).seqState = .settle ∧ microsSince 1019 1000 < (session .settle).cfg.tSettle) ∧
    (session .observe).seqState = .observe ∧ microsSince 100999 1000 < (session .observe).cfg.tWindow := by decide

theorem witness_TickReleasesLineHigh :
    (session .lowHold).seqState = .lowHold ∧ (session .lowHold).cfg.tLow ≤ microsSince 3000 1000 := by decide

theorem witness_TickHandsLineOver :
    ((session .settle).seqState = .settle ∧ (session .settle).cfg.tSettle ≤ microsSince 1020 1000) ∧
    (session .settle).answers.setDirection = .ok ∧
    ({ session .settle with answers := { setDirection := .fail } } : State).answers.setDirection = .fail := by decide

theorem witness_TickEndsCapture :
    (session .observe).seqState = .observe ∧ (session .observe).cfg.tWindow ≤ microsSince 101000 1000 := by decide

theorem witness_OnlySequencerCallsDriver :
    (∀ pin now, Instr.disarm ≠ .start pin now) ∧ (∀ now, Instr.disarm ≠ .tick now) ∧
    ∃ t, exec .disarm (session .observe) = .next t := ⟨nofun, nofun, _, rfl⟩

/-- A step along each kind of row of the relation. -/
theorem witness_SequencerTransitionRelation :
    (∃ t, exec (.start 27 0) (resting .idle {}) = .next t ∧ t.seqState = .lowHold) ∧
    (∃ t, exec (.start 27 0) (resting .idle ⟨.fail, .ok, .ok⟩) = .next t ∧ t.seqState = .failed) ∧
    (∃ t, exec (.tick 3000) (session .lowHold) = .next t ∧ t.seqState = .settle) ∧
    (∃ t, exec (.tick 1020) (session .settle) = .next t ∧ t.seqState = .observe) ∧
    ∃ t, exec (.tick 101000) (session .observe) = .next t ∧ t.seqState = .done :=
  ⟨⟨_, rfl, rfl⟩, ⟨_, rfl, rfl⟩, ⟨_, rfl, rfl⟩, ⟨_, rfl, rfl⟩, _, rfl, rfl⟩

theorem witness_ClaimsAndReleasesBalance :
    Inv (resting .idle {}) ∧ ∃ t, exec (.start 27 0) (resting .idle {}) = .next t ∧ t.pinClaimed = true :=
  ⟨⟨by decide, by decide, by decide, by decide, by decide, by decide, by decide, by decide, by decide, by decide,
    by decide, by decide, by decide⟩, _, rfl, rfl⟩

theorem witness_SessionMakesEightDriverCalls :
    State.reset.seqState.running = false ∧ (4 : PinNum).toNat ≤ State.reset.cfg.pinMax ∧ State.reset.answers = ⟨.ok, .ok, .ok⟩ ∧
    State.reset.cfg.tLow ≤ microsSince 1744 0xFFFFFF00 ∧ State.reset.cfg.tSettle ≤ microsSince 1764 1744 ∧
    State.reset.cfg.tWindow ≤ microsSince 101764 1764 := by decide

theorem witness_DecodeRefusedWhileEnabled : twoSamples.cbEn = true := rfl

theorem witness_DecodeNeedsMinEdges :
    ∀ c ∈ [Cursor.waiting, .stored 0, .stored 9], ({ State.reset with count := c } : State).cbEn = false ∧
      ({ State.reset with count := c } : State).count.toInt < State.reset.cfg.minEdges := by decide

/-- V-D7: ten samples of 499. -/
theorem witness_DecodeNoAcknowledgement :
    (after (exec .decode (captured (List.replicate 10 ⟨499, .low⟩)))).map (fun t => (t.err, t.decIdx)) =
      some (.noAcknowledgement, 10) := by decide +kernel

/-- `n` samples, the acknowledgement at index 0 and the two halves as given. -/
def halves (first : Level) (d2 d3 : Micros) (n : Nat) : State :=
  captured ((⟨2000, first⟩ :: ⟨30, .high⟩ :: ⟨d2, .low⟩ :: ⟨d3, .high⟩ :: List.replicate 6 (⟨50, .low⟩ : Sample)).take n)

/-- What the second statement on the acknowledgement asks of the buffer, for the long sample at index 0. -/
abbrev Hypotheses (s : State) (n : Nat) : Prop :=
  s.cbEn = false ∧ s.count = .stored n ∧ s.cfg.minEdges ≤ n ∧ 0 < n ∧ s.cfg.tAck ≤ (s.sampleAt 0).duration.toNat

/-- V-D9a, V-D9b, V-D10: each clause at its bound; the missing sample under `MIN_EDGES = 3`. -/
theorem witness_DecodeMalformedAcknowledgement :
    Hypotheses { halves .low 80 80 3 with cfg := { minEdges := 3 } } 3 ∧
    (Hypotheses (halves .high 80 80 10) 10 ∧ ((halves .high 80 80 10).sampleAt 0).level = .high) ∧
    (Hypotheses (halves .low 65 80 10) 10 ∧ ((halves .low 65 80 10).sampleAt 2).duration ≤ 65) ∧
    Hypotheses (halves .low 80 65 10) 10 ∧ ((halves .low 80 65 10).sampleAt 3).duration ≤ 65 := by decide +kernel

/-- The acknowledgement at its bounds (V-D8), then high samples of 70 for 1 and 26 for 0. -/
def frame (bits : List Bool) : State :=
  captured (⟨500, .low⟩ :: ⟨30, .high⟩ :: ⟨66, .low⟩ :: ⟨66, .high⟩ :: bits.map fun b => ⟨if b then 70 else 26, .high⟩)

/-- The bits of a payload in their order of arrival. -/
def bitsOf (p : Payload) : List Bool := (List.range 40).map (payloadBit p)

theorem acknowledged_frame (l : List Bool) (h : 6 ≤ l.length) : Acknowledged (frame l) 0 (l.length + 4) where
  count := by simp [frame, captured]
  enough := by simp only [frame, captured, State.reset, State.resetWith]; omega
  room := by omega
  first k hk := absurd hk (by omega)
  long := show 500 ≤ (500 : Micros).toNat by decide
  low := rfl
  half1 := show 65 < (66 : Micros).toNat by decide
  half2 := show 65 < (66 : Micros).toNat by decide

/-- V-D13: 39 bits. -/
theorem witness_DecodeRunsOutOfBits :
    (frame (List.replicate 39 true)).cfg.WellFormed ∧ (frame (List.replicate 39 true)).cbEn = false ∧
    Acknowledged (frame (List.replicate 39 true)) 0 43 ∧
    (arrivedBits (frame (List.replicate 39 true)) 4 43).length < 40 :=
  ⟨smoke_default_config, rfl, acknowledged_frame _ (by decide), by decide +kernel⟩

/-- V-D5: the fifth byte is wrong by one. -/
theorem witness_DecodeChecksumMismatch :
    (frame (bitsOf ⟨0x32, 0, 0x1B, 0, 0x4C⟩)).cfg.WellFormed ∧
    (frame (bitsOf ⟨0x32, 0, 0x1B, 0, 0x4C⟩)).cbEn = false ∧ Acknowledged (frame (bitsOf ⟨0x32, 0, 0x1B, 0, 0x4C⟩)) 0 44 ∧
    IsPayload (frame (bitsOf ⟨0x32, 0, 0x1B, 0, 0x4C⟩)) 4 44 ⟨0x32, 0, 0x1B, 0, 0x4C⟩ ∧
    (0x32 + 0 + 0x1B + 0) % 256 ≠ 0x4C :=
  ⟨smoke_default_config, rfl, acknowledged_frame _ (by decide), ⟨by decide +kernel, by decide +kernel⟩, by decide⟩

/-- V-D11. -/
theorem witness_DecodeAllZeroPayload :
    (frame (bitsOf ⟨0, 0, 0, 0, 0⟩)).cfg.WellFormed ∧ (frame (bitsOf ⟨0, 0, 0, 0, 0⟩)).cbEn = false ∧
    Acknowledged (frame (bitsOf ⟨0, 0, 0, 0, 0⟩)) 0 44 ∧
    IsPayload (frame (bitsOf ⟨0, 0, 0, 0, 0⟩)) 4 44 ⟨0, 0, 0, 0, 0⟩ :=
  ⟨smoke_default_config, rfl, acknowledged_frame _ (by decide), by decide +kernel, by decide +kernel⟩

/-- Kind A, and kind B with the sign bit set. -/
theorem witness_DecodeDeliversReading :
    ((frame (bitsOf scenario1)).cfg.WellFormed ∧ (frame (bitsOf scenario1)).cbEn = false) ∧
    (Acknowledged (frame (bitsOf scenario1)) 0 44 ∧ IsPayload (frame (bitsOf scenario1)) 4 44 scenario1 ∧
      (0x32 + 0 + 0x1B + 0) % 256 = 0x4D) ∧
    Acknowledged (frame (bitsOf scenario3)) 0 44 ∧ IsPayload (frame (bitsOf scenario3)) 4 44 scenario3 ∧
      (0x02 + 0x8C + 0x81 + 0x90) % 256 = 0x9F :=
  ⟨⟨smoke_default_config, rfl⟩, ⟨acknowledged_frame _ (by decide), ⟨by decide +kernel, by decide +kernel⟩, by decide⟩,
    acknowledged_frame _ (by decide), ⟨by decide +kernel, by decide +kernel⟩, by decide⟩

/-- Two buffers that differ in a stale entry. -/
theorem witness_DecodeReadsOnlyBelowCount :
    SameBuffer (captured []) { captured [] with store := [(0, ⟨2000, .low⟩)] } ∧
    ∃ t, exec .decode (captured []) = .next t :=
  ⟨⟨rfl, rfl, rfl, by decide⟩, _, rfl⟩

theorem witness_DecodeWritesOnlyDecoder : ∃ t, exec .decode (standard scenario1) = .next t := ⟨_, rfl⟩

theorem witness_DecodeIdempotent : ∃ t, exec .decode (standard scenario3) = .next t := ⟨_, rfl⟩

theorem witness_StepwiseDecoderAgrees :
    Inv { twoSamples with cbEn := false } ∧ ({ twoSamples with cbEn := false } : State).cbEn = false :=
  ⟨⟨inv_twoSamples.config, inv_twoSamples.memory, inv_twoSamples.filled, inv_twoSamples.count_le, inv_twoSamples.filter,
    inv_twoSamples.claimed, inv_twoSamples.driven, inv_twoSamples.low, inv_twoSamples.high, inv_twoSamples.admissible,
    inv_twoSamples.atomic, inv_twoSamples.valid, inv_twoSamples.failure⟩, rfl⟩

/-- Kind A at its bound, and a negative kind B (scenario 3). -/
theorem witness_StandardBufferRoundTrips :
    (RoundTrips ⟨.a, 2550, 0⟩ ∧ ∀ k < 85, (standard (payloadOf ⟨.a, 2550, 0⟩)).sampleAt k =
      standardSample (payloadOf ⟨.a, 2550, 0⟩) k) ∧
    (RoundTrips ⟨.b, 652, -400⟩ ∧ payloadOf ⟨.b, 652, -400⟩ = scenario3 ∧
      ∀ k < 85, (standard scenario3).sampleAt k = standardSample scenario3 k) ∧
    (standard scenario3).cfg.WellFormed ∧ (standard scenario3).cbEn = false ∧ (standard scenario3).count = .stored 85 ∧
    (standard scenario3).cfg.minEdges ≤ 85 ∧ (standard scenario3).cfg.tAck ≤ 2000 ∧
    (standard scenario3).cfg.tHalf < 80 ∧ 26 < (standard scenario3).cfg.tBit ∧ (standard scenario3).cfg.tBit ≤ 70 :=
  ⟨⟨⟨255, 0, by decide⟩, by decide +kernel⟩, ⟨by unfold RoundTrips; decide, by decide, by decide +kernel⟩, smoke_default_config,
    by decide⟩

theorem witness_RdresReportsReading :
    ({ State.reset with reading := some ⟨.b, 652, -400⟩ } : State).reading = some ⟨.b, 652, -400⟩ := rfl

theorem witness_RdresReportsStatus : State.reset.reading = none := rfl

end Sys2Proof.Tests
end

section
/-! What a step does with the head of `pending`: one equation per form of the queue that is given a next state, and the
two statements of 00_scope.md R8 that are instances of them. -/

namespace Sys2Proof.Proofs

open Sys2Proof.Machine

/-! ## Fetch -/

theorem fetch_of_pending_nil {s : State} (hp : s.pending = []) : fetch s = .idle := by
  simp only [fetch, hp]

theorem fetch_of_pending_op {s : State} {o : Issued} {rest : List Event} (hp : s.pending = .op o :: rest) :
    fetch s = receive o { s with pending := rest } := by
  simp only [fetch, hp]

/-- The one accepting branch of `receive`: the word decodes and the issuer is the operation's own context. -/
theorem receive_of_decode_ok {o : Issued} {i : Instr} (s : State) (hd : decode o.word = .ok i)
    (hc : o.issuer = i.context) : receive o s = .run i { s with answers := o.answers } := by
  simp only [receive, hd, if_pos hc]

/-! ## Step -/

theorem step_of_fetch_idle {s : State} (hf : fetch s = .idle) : step s = .next s := by
  simp only [step, hf]

theorem step_of_fetch_run {s t : State} {i : Instr} (hf : fetch s = .run i t) : step s = exec i t := by
  simp only [step, hf]

/-- Settles O8: an empty queue is fetched as `idle`, on which a step rests. -/
theorem idleStepChangesNothing : Obligations.IdleStepChangesNothing :=
  fun _ hp => step_of_fetch_idle (fetch_of_pending_nil hp)

/-- Settles O5: the fetch hands the event to `receive`, which accepts it, and the step runs what `receive` answers. -/
theorem stepRunsDecodedOperation : Obligations.StepRunsDecodedOperation := by
  intro s o rest i hp hd hc
  have hf : fetch s = .run i { s with pending := rest, answers := o.answers } :=
    (fetch_of_pending_op hp).trans (receive_of_decode_ok { s with pending := rest } hd hc)
  exact step_of_fetch_run hf

end Sys2Proof.Proofs
end

section
/-! The state as a whole: what each operation can leave behind, said once, and from it the invariant, the changes of
`count`, and the frame of the operations that are not the sequencer's (10_state.md R20, R21, R47). -/

namespace Sys2Proof.Proofs

open Sys2Proof.Machine

/-! ## What an operation leaves -/

/-- The state an operation leaves before its response is put in: which of the shared operations ran, under which guard. -/
inductive OpEffect (s : State) : Instr → State → Prop
  | arm : OpEffect s .arm (armBuffer s)
  | enable : OpEffect s .enable (openGate s)
  | disarm : OpEffect s .disarm (closeGate s)
  /-- A read of a register or an entry, an EDGE without effect, a rejected START. -/
  | unchanged (i : Instr) : OpEffect s i s
  /-- A read that is answered with a free value. -/
  | freeValue (i : Instr) : OpEffect s i (drawn s)
  | armingEdge (l : Level) (now : Micros) (waiting : s.count = .waiting) :
      OpEffect s (.edge l now) (acceptArmingEdge l now s)
  | storedEdge (l : Level) (now : Micros) (n : Nat) (stored : s.count = .stored n) (room : n < s.cfg.capacity) :
      OpEffect s (.edge l now) (storeSample n l now s)
  | session (pin : PinNum) (now : Micros) (resting : s.seqState.running = false)
      (admissible : pin.toNat ≤ s.cfg.pinMax) : OpEffect s (.start pin now) (startSession pin now s)
  | tick (now : Micros) : OpEffect s (.tick now) (advance now s)
  | decode (closed : s.cbEn = false) : OpEffect s .decode (decodeBuffer s)

/-- EDGE behind an open gate changes nothing, arms, or stores. -/
theorem opEffect_acceptEdge (l : Level) (now : Micros) (s : State) : OpEffect s (.edge l now) (acceptEdge l now s) := by
  rcases acceptEdge_cases l now s with ⟨_, e⟩ | ⟨_, hc, e⟩ | ⟨n, _, hc, hn, e⟩ | ⟨_, _, _, _, e⟩ <;> rw [e]
  · exact .unchanged _
  · exact .armingEdge l now hc
  · exact .storedEdge l now n hc hn
  · exact .unchanged _

/-- The inversion of `exec`: where an operation answers a next state, it is the operation's effect and a response. -/
theorem opEffect_of_exec {i : Instr} {s t : State} (h : exec i s = .next t) :
    ∃ r u, t = respond r u ∧ OpEffect s i u := by
  cases i with
  | arm => exact ⟨_, _, (Host.Outcome.next.inj h).symm, .arm⟩
  | enable => exact ⟨_, _, (Host.Outcome.next.inj h).symm, .enable⟩
  | edge l now =>
    refine ⟨_, _, (Host.Outcome.next.inj h).symm, ?_⟩
    split
    · exact opEffect_acceptEdge l now s
    · exact .unchanged _
  | disarm => exact ⟨_, _, (Host.Outcome.next.inj h).symm, .disarm⟩
  | rdcnt => exact ⟨_, _, (Host.Outcome.next.inj h).symm, .unchanged _⟩
  | rdsmp idx =>
    simp only [exec, execRdsmp] at h
    split_ifs at h
    · exact ⟨_, _, (Host.Outcome.next.inj h).symm, .unchanged _⟩
    · exact ⟨_, _, (Host.Outcome.next.inj h).symm, .freeValue _⟩
  | start pin now =>
    simp only [exec, execStart] at h
    split_ifs at h with hr hp
    · exact ⟨_, _, (Host.Outcome.next.inj h).symm, .unchanged _⟩
    · exact ⟨_, _, (Host.Outcome.next.inj h).symm, .unchanged _⟩
    · exact ⟨_, _, (Host.Outcome.next.inj h).symm, .session pin now (Bool.eq_false_iff.mpr hr) (Nat.not_lt.mp hp)⟩
  | tick now => exact ⟨_, _, (Host.Outcome.next.inj h).symm, .tick now⟩
  | decode =>
    simp only [exec, execDecode] at h
    split_ifs at h with hc
    exact ⟨_, _, (Host.Outcome.next.inj h).symm, .decode (Bool.eq_false_iff.mpr hc)⟩
  | rdres =>
    simp only [exec, execRdres] at h
    split at h
    · exact ⟨_, _, (Host.Outcome.next.inj h).symm, .unchanged _⟩
    · exact ⟨_, _, (Host.Outcome.next.inj h).symm, .freeValue _⟩

/-! ## The three long operations, each as one update of the state -/

/-- A session fails at the claim with the buffer untouched, fails later with the buffer armed and everything undone, or
holds the line low. -/
theorem startSession_updates (p : PinNum) (now : Micros) (s : State) :
    ∃ cs,
      startSession p now s = { s with
        seqPin := p, decState := .idle, reading := none, calls := cs
        seqState := .failed, err := .hardwareAcquisitionFailure } ∨
      startSession p now s = { s with
        seqPin := p, decState := .idle, reading := none, calls := cs
        count := .waiting, lastLevel := none, cbEn := false
        seqState := .failed, err := .hardwareAcquisitionFailure, pinClaimed := false, pinOe := false } ∨
      startSession p now s = { s with
        seqPin := p, decState := .idle, reading := none, calls := cs
        count := .waiting, lastLevel := none, cbEn := true
        seqState := .lowHold, seqT0 := now, err := .none, pinClaimed := true, pinOe := true, pinO := .low } := by
  rcases startSession_cases p now s with ⟨_, e⟩ | ⟨_, e⟩ <;> rw [e]
  · exact ⟨_, .inl rfl⟩
  · rcases registerCallback_cases p now (callDriver (.claim p .ok) (openSession p s)) with ⟨_, e⟩ | ⟨_, e⟩ <;> rw [e]
    · exact ⟨_, .inr (.inl (abort_eq _))⟩
    · rcases driveLow_cases p now (openGate (callDriver (.onTransition p .ok)
        (armBuffer { callDriver (.claim p .ok) (openSession p s) with pinClaimed := true }))) with
        ⟨_, e⟩ | ⟨_, e⟩ <;> rw [e]
      · exact ⟨_, .inr (.inl (abort_eq _))⟩
      · exact ⟨_, .inr (.inr rfl)⟩

/-- A TICK takes one row of the sequencer's transition relation (41_reset_sequencer.md R160), or changes nothing. -/
theorem advance_updates (now : Micros) (s : State) :
    advance now s = s ∨
    ∃ cs,
      (s.seqState = .lowHold ∧ advance now s =
        { s with calls := cs, seqState := .settle, seqT0 := now, pinO := .high }) ∨
      (s.seqState = .settle ∧ advance now s =
        { s with
          calls := cs, seqState := .failed, cbEn := false, pinClaimed := false, pinOe := false
          err := .hardwareAcquisitionFailure, reading := none }) ∨
      (s.seqState = .settle ∧ advance now s =
        { s with calls := cs, seqState := .observe, seqT0 := now, pinOe := false }) ∨
      (s.seqState = .observe ∧ advance now s =
        { s with calls := cs, seqState := .done, cbEn := false, pinClaimed := false }) := by
  rcases advance_cases now s with ⟨hs, _, e⟩ | ⟨hs, _, e⟩ | ⟨hs, _, e⟩ | ⟨_, _, _, e⟩ <;> rw [e]
  · exact .inr ⟨_, .inl ⟨hs, rfl⟩⟩
  · rcases handOver_cases now s with ⟨_, e⟩ | ⟨_, e⟩ <;> rw [e]
    · exact .inr ⟨_, .inr (.inl ⟨hs, abort_eq _⟩)⟩
    · exact .inr ⟨_, .inr (.inr (.inl ⟨hs, rfl⟩))⟩
  · exact .inr ⟨_, .inr (.inr (.inr ⟨hs, endCapture_eq s⟩))⟩
  · exact .inl rfl

/-- `t` is `s` with a decode finished: only the decoder's registers differ, and there is a reading exactly where there is
no failure (42_protocol_decoder.md R190, R205). -/
def DecodeFinished (s t : State) : Prop :=
  ∃ idx nbits data err reading,
    t = { s with
      decIdx := idx, decNbits := nbits, data := data, err := err, reading := reading, decState := .done } ∧
    (reading.isSome = true ↔ err = .none)

/-- The verdict finishes the decode of a recovered run. -/
theorem decodeFinished_judge (s : State) (idx : BitVec 8) (r : BitRun) :
    DecodeFinished s (judge (loadRun r { s with decIdx := idx })) := by
  rcases judge_cases (loadRun r { s with decIdx := idx }) with ⟨_, e⟩ | ⟨_, _, e⟩ | ⟨_, _, e⟩ <;> rw [e]
  · exact ⟨_, _, _, _, _, rfl, by simp⟩
  · exact ⟨_, _, _, _, _, rfl, by simp⟩
  · exact ⟨_, _, _, _, _, rfl, by simp⟩

/-- Every way out of DECODE finishes the decode: the four failures before the verdict, and the verdict. -/
theorem decodeFinished_decodeBuffer (s : State) : DecodeFinished s (decodeBuffer s) := by
  rcases decodeBuffer_cases s with ⟨_, e⟩ | ⟨_, _, e⟩ | ⟨_, _, _, e⟩ | ⟨_, _, _, e⟩ <;> rw [e]
  · exact ⟨_, _, _, _, _, rfl, by simp⟩
  · exact ⟨_, _, _, _, _, rfl, by simp⟩
  · exact ⟨_, _, _, _, _, rfl, by simp⟩
  · rcases decodePayload_cases s.count.samples (scanFrom s.cfg.tAck s.sampleAt s.count.samples 0)
      { s with decIdx := BitVec.ofNat 8 (scanFrom s.cfg.tAck s.sampleAt s.count.samples 0) } with
      ⟨_, e⟩ | ⟨_, e⟩ <;> rw [e]
    · exact ⟨_, _, _, _, _, rfl, by simp⟩
    · exact decodeFinished_judge s _ _

/-! ## What keeps the invariant

Each lemma gives the clauses its update touches; the others are those of the state before. -/

section
variable {s t : State}

theorem inv_respond (r : Response) (h : Inv s) : Inv (respond r s) := { h with }

theorem inv_drawn (h : Inv s) : Inv (drawn s) := { h with }

theorem inv_openGate (h : Inv s) : Inv (openGate s) := { h with }

theorem inv_closeGate (h : Inv s) : Inv (closeGate s) := { h with }

/-- Without an arming edge there is no entry to be filled and no level to be known. -/
theorem inv_armBuffer (h : Inv s) : Inv (armBuffer s) :=
  { h with
    filled := fun _ hi => absurd hi (Nat.not_lt_zero _)
    count_le := Nat.zero_le _
    filter := ⟨fun _ => rfl, fun _ => rfl⟩ }

theorem inv_acceptArmingEdge (l : Level) (now : Micros) (h : Inv s) : Inv (acceptArmingEdge l now s) :=
  { h with
    filled := fun _ hi => absurd hi (Nat.not_lt_zero _)
    count_le := Nat.zero_le _
    filter := ⟨nofun, nofun⟩ }

/-- The entries below the new `count` are those below the old one and the one just written. -/
theorem inv_storeSample (l : Level) (now : Micros) {n : Nat} (h : Inv s) (stored : s.count = .stored n)
    (room : n < s.cfg.capacity) : Inv (storeSample n l now s) :=
  { h with
    memory := memWrite_wf _ room h.memory
    filled := fun i hi => by
      rw [storeSample_store]
      rcases Nat.lt_succ_iff_lt_or_eq.mp hi with hi | rfl
      · rw [memRead_memWrite_other _ _ hi.ne]
        exact h.filled i (by rw [stored]; exact hi)
      · rw [memRead_memWrite_same]; rfl
    count_le := room
    filter := ⟨nofun, nofun⟩ }

/-- In a resting state the pin is neither claimed nor an output. -/
theorem pin_free_of_resting (h : Inv s) (resting : s.seqState.running = false) :
    s.pinClaimed = false ∧ s.pinOe = false := by
  refine ⟨h.claimed.trans resting, Bool.eq_false_iff.mpr fun oe => ?_⟩
  rcases h.driven.mp oe with e | e <;> rw [e] at resting <;> exact absurd resting (by decide)

/-- A session that fails leaves the pin free and shows its failure; one that starts drives an admissible pin low. -/
theorem inv_startSession {p : PinNum} (now : Micros) (h : Inv s) (resting : s.seqState.running = false)
    (admissible : p.toNat ≤ s.cfg.pinMax) : Inv (startSession p now s) := by
  obtain ⟨unclaimed, input⟩ := pin_free_of_resting h resting
  have armed := inv_armBuffer h
  obtain ⟨cs, e | e | e⟩ := startSession_updates p now s <;> rw [e]
  · exact { h with
      claimed := unclaimed
      driven := by simp [input]
      low := nofun
      high := nofun
      admissible := nofun
      atomic := .inl rfl
      valid := nofun
      failure := nofun }
  · exact { armed with
      claimed := rfl
      driven := by simp
      low := nofun
      high := nofun
      admissible := nofun
      atomic := .inl rfl
      valid := nofun
      failure := nofun }
  · exact { armed with
      claimed := rfl
      driven := by simp
      low := fun _ => rfl
      high := nofun
      admissible := fun _ => admissible
      atomic := .inl rfl
      valid := nofun
      failure := nofun }

theorem inv_advance (now : Micros) (h : Inv s) : Inv (advance now s) := by
  obtain e | ⟨cs, ⟨hs, e⟩ | ⟨hs, e⟩ | ⟨hs, e⟩ | ⟨hs, e⟩⟩ := advance_updates now s <;> rw [e]
  · exact h
  · exact { h with
      claimed := by simp [h.claimed, hs, SeqState.running]
      driven := by simp [h.driven, hs]
      low := nofun
      high := fun _ => rfl
      admissible := fun _ => h.admissible (by rw [hs]; rfl) }
  · exact { h with
      claimed := rfl
      driven := by simp
      low := nofun
      high := nofun
      admissible := nofun
      valid := nofun
      failure := nofun }
  · exact { h with
      claimed := by simp [h.claimed, hs, SeqState.running]
      driven := by simp
      low := nofun
      high := nofun
      admissible := fun _ => h.admissible (by rw [hs]; rfl) }
  · exact { h with
      claimed := rfl
      driven := by simp [h.driven, hs]
      low := nofun
      high := nofun
      admissible := nofun }

theorem inv_of_decodeFinished (h : Inv s) (hf : DecodeFinished s t) : Inv t := by
  obtain ⟨_, _, _, _, reading, rfl, hr⟩ := hf
  exact { h with
    atomic := .inr rfl
    valid := fun hv => ⟨hr.mp hv, rfl⟩
    failure := fun _ hv he => absurd (hr.mpr he) (Bool.eq_false_iff.mp hv) }

/-- After reset the buffer waits, the sequencer and the decoder are idle and the pin is free. -/
theorem inv_resetWith {c : Config} (hc : c.WellFormed) : Inv (State.resetWith c) where
  config := hc
  memory := reset_memory_wf c
  filled := fun _ hi => absurd hi (Nat.not_lt_zero _)
  count_le := Nat.zero_le _
  filter := ⟨fun _ => rfl, fun _ => rfl⟩
  claimed := rfl
  driven := by simp [State.resetWith]
  low := nofun
  high := nofun
  admissible := nofun
  atomic := .inl rfl
  valid := nofun
  failure := nofun

/-- The reset event differs from the reset state, among the registers the invariant reads, in the unspecified ones only
(10_state.md R47), and of those it asks nothing while the sequencer is idle. -/
theorem inv_resetEvent (hc : s.cfg.WellFormed) : Inv (resetEvent s) :=
  { inv_resetWith hc with
    low := nofun
    high := nofun
    admissible := nofun }

theorem inv_of_opEffect {i : Instr} (h : Inv s) (he : OpEffect s i t) : Inv t := by
  cases he with
  | arm => exact inv_armBuffer h
  | enable => exact inv_openGate h
  | disarm => exact inv_closeGate h
  | unchanged => exact h
  | freeValue => exact inv_drawn h
  | armingEdge l now => exact inv_acceptArmingEdge l now h
  | storedEdge l now n stored room => exact inv_storeSample l now h stored room
  | session pin now resting admissible => exact inv_startSession now h resting admissible
  | tick now => exact inv_advance now h
  | decode => exact inv_of_decodeFinished h (decodeFinished_decodeBuffer s)

theorem exec_keeps_inv {i : Instr} (h : Inv s) (hx : exec i s = .next t) : Inv t := by
  obtain ⟨r, u, rfl, he⟩ := opEffect_of_exec hx
  exact inv_respond r (inv_of_opEffect h he)

end

/-- Settles O29: a step rests, resets, or runs one operation in the state with the event taken off. -/
theorem stepKeepsInv : Obligations.StepKeepsInv := by
  intro s t h hx
  rcases step_next_cases hx with ⟨_, rfl⟩ | ⟨rest, _, rfl⟩ | ⟨o, rest, i, _, _, _, hi⟩
  · exact h
  · exact inv_resetEvent h.config
  · have taken : Inv { s with pending := rest, answers := o.answers } := { h with }
    exact exec_keeps_inv taken hi

/-! ## `count` -/

/-- START leaves `count` as it is where the claim fails, and resets it in every other case. -/
theorem startSession_count (p : PinNum) (now : Micros) (s : State) :
    (startSession p now s).count = s.count ∨ (startSession p now s).count = .waiting := by
  obtain ⟨cs, e | e | e⟩ := startSession_updates p now s <;> rw [e]
  · exact .inl rfl
  · exact .inr rfl
  · exact .inr rfl

theorem advance_count (now : Micros) (s : State) : (advance now s).count = s.count := by
  obtain e | ⟨cs, ⟨_, e⟩ | ⟨_, e⟩ | ⟨_, e⟩ | ⟨_, e⟩⟩ := advance_updates now s <;> rw [e]

theorem decodeBuffer_count (s : State) : (decodeBuffer s).count = s.count := by
  obtain ⟨_, _, _, _, _, e, _⟩ := decodeFinished_decodeBuffer s
  rw [e]

/-- Settles O26: of the effects only `arm`, the two of EDGE and a session write `count`. -/
theorem countChangesOnlyByArmAndEdge : Obligations.CountChangesOnlyByArmAndEdge := by
  intro i s t hx
  obtain ⟨r, u, rfl, he⟩ := opEffect_of_exec hx
  rw [respond_count]
  cases he with
  | arm => exact .inr (.inl ⟨rfl, .inl rfl⟩)
  | enable | disarm | unchanged | freeValue => exact .inl rfl
  | armingEdge l now waiting => exact .inr (.inr ⟨l, now, rfl, by simp [waiting, Cursor.toInt]⟩)
  | storedEdge l now n stored => exact .inr (.inr ⟨l, now, rfl, by simp [stored, Cursor.toInt]⟩)
  | session pin now => exact (startSession_count pin now s).imp_right fun hc => .inl ⟨hc, .inr ⟨pin, now, rfl⟩⟩
  | tick now => exact .inl (advance_count now s)
  | decode => exact .inl (decodeBuffer_count s)

/-! ## The sequencer's registers -/

/-- The two states agree on the driver calls made and on every register of the Reset Sequencer and its pin
(10_state.md R20). -/
structure SameSequencer (s t : State) : Prop where
  calls : t.calls = s.calls
  seqState : t.seqState = s.seqState
  seqPin : t.seqPin = s.seqPin
  seqT0 : t.seqT0 = s.seqT0
  pinClaimed : t.pinClaimed = s.pinClaimed
  pinOe : t.pinOe = s.pinOe
  pinO : t.pinO = s.pinO

theorem sameSequencer_of_decodeFinished {s t : State} (hf : DecodeFinished s t) : SameSequencer s t := by
  obtain ⟨_, _, _, _, _, rfl, _⟩ := hf
  exact ⟨rfl, rfl, rfl, rfl, rfl, rfl, rfl⟩

/-- Of the effects only a session and a TICK write a register of the sequencer or call the driver. -/
theorem sameSequencer_of_opEffect {i : Instr} {s t : State} (notStart : ∀ pin now, i ≠ .start pin now)
    (notTick : ∀ now, i ≠ .tick now) (he : OpEffect s i t) : SameSequencer s t := by
  cases he with
  | arm | enable | disarm | unchanged | freeValue | armingEdge | storedEdge => exact ⟨rfl, rfl, rfl, rfl, rfl, rfl, rfl⟩
  | session pin now => exact absurd rfl (notStart pin now)
  | tick now => exact absurd rfl (notTick now)
  | decode => exact sameSequencer_of_decodeFinished (decodeFinished_decodeBuffer s)

/-- Settles O42: the response is no register of the sequencer, and the effects that remain keep them all. -/
theorem onlySequencerCallsDriver : Obligations.OnlySequencerCallsDriver := by
  intro i s t notStart notTick hx
  obtain ⟨r, u, rfl, he⟩ := opEffect_of_exec hx
  obtain ⟨calls, seqState, seqPin, seqT0, pinClaimed, pinOe, pinO⟩ := sameSequencer_of_opEffect notStart notTick he
  exact ⟨calls, seqState, seqPin, seqT0, pinClaimed, pinOe, pinO⟩

/-! ## Reset and the codes -/

/-- While no arming edge has been seen there is no sample whose level could fail to alternate. -/
theorem levelsAlternate_of_waiting {s : State} (waiting : s.count = .waiting) : LevelsAlternate s where
  alternate := fun _ hi => by rw [waiting] at hi; exact absurd hi (Nat.not_lt_zero _)
  newest := fun _ _ hc => by rw [waiting] at hc; cases hc

/-- Settles O30: the reset state waits for its arming edge, so both invariants hold with nothing stored. -/
theorem resetHasInv : Obligations.ResetHasInv :=
  fun _ hc => ⟨inv_resetWith hc, levelsAlternate_of_waiting rfl⟩

/-- Settles O58: each code is one row of the tables of `SeqState.code`, `Err.code` and `Kind.bit`. -/
theorem registerCodes : Obligations.RegisterCodes :=
  ⟨rfl, rfl, rfl, rfl, rfl, rfl, rfl, rfl, rfl, rfl, rfl, rfl, rfl, rfl, rfl⟩

end Sys2Proof.Proofs
end

section
/-! The sample store's one write port: the store is the old one but for the sample an EDGE stores at index `count`, so
entries below `count` are final, and no operation but EDGE writes an entry (20_memory.md R62, R70). -/

namespace Sys2Proof.Proofs

open Sys2Proof.Machine

/-! ## The long operations do not write the store -/

theorem startSession_store (p : PinNum) (now : Micros) (s : State) : (startSession p now s).store = s.store := by
  obtain ⟨_, e | e | e⟩ := startSession_updates p now s <;> rw [e]

theorem advance_store (now : Micros) (s : State) : (advance now s).store = s.store := by
  obtain e | ⟨_, ⟨_, e⟩ | ⟨_, e⟩ | ⟨_, e⟩ | ⟨_, e⟩⟩ := advance_updates now s <;> rw [e]

theorem decodeBuffer_store (s : State) : (decodeBuffer s).store = s.store := by
  obtain ⟨_, _, _, _, _, e, _⟩ := decodeFinished_decodeBuffer s
  rw [e]

/-! ## The write port -/

/-- An effect keeps the store, or is that of an EDGE which stores its sample at index `count` (40_capture_buffer.md R123
step 4). -/
theorem store_kept_or_sample_stored {i : Instr} {s t : State} (he : OpEffect s i t) :
    t.store = s.store ∨ ∃ l now n, i = .edge l now ∧ s.count = .stored n ∧ t = storeSample n l now s := by
  cases he with
  | arm | enable | disarm | unchanged | freeValue | armingEdge => exact .inl rfl
  | storedEdge l now n stored => exact .inr ⟨l, now, n, rfl, stored, rfl⟩
  | session pin now => exact .inl (startSession_store pin now s)
  | tick now => exact .inl (advance_store now s)
  | decode => exact .inl (decodeBuffer_store s)

/-- No operation changes an entry below `count`: the one entry EDGE writes is at `count`. ARM and START are no exception:
they only move `count`, and the entries change under later EDGEs (20_memory.md R70). -/
theorem sampleAt_below_count_of_opEffect {i : Instr} {s t : State} (he : OpEffect s i t) {k : Nat}
    (below : k < s.count.samples) : t.sampleAt k = s.sampleAt k := by
  rcases store_kept_or_sample_stored he with kept | ⟨l, now, n, _, stored, rfl⟩
  · exact sampleAt_congr kept k
  · have hkn : k < n := by rwa [stored] at below
    rw [storeSample_sampleAt, if_neg hkn.ne]

/-- `count` falls in ARM and START only (10_state.md R21). -/
theorem count_le_of_exec {i : Instr} {s t : State} (notArm : i ≠ .arm) (notStart : ∀ pin now, i ≠ .start pin now)
    (hx : exec i s = .next t) : s.count.toInt ≤ t.count.toInt := by
  rcases countChangesOnlyByArmAndEdge i s t hx with same | ⟨_, isArm | ⟨pin, now, isStart⟩⟩ | ⟨_, _, _, raised⟩
  · exact (congrArg Cursor.toInt same).ge
  · exact absurd isArm notArm
  · exact absurd isStart (notStart pin now)
  · omega

/-- Settles O25: `count` falls in the two operations left out only, and no effect writes below it. -/
theorem storedSamplesFinal : Obligations.StoredSamplesFinal := by
  intro i s t notArm notStart hx
  refine ⟨count_le_of_exec notArm notStart hx, fun k below => ?_⟩
  obtain ⟨r, u, rfl, he⟩ := opEffect_of_exec hx
  rw [respond_sampleAt]
  exact sampleAt_below_count_of_opEffect he below

/-- Settles O27: the effect that writes the store is that of an EDGE. -/
theorem onlyEdgeWritesStore : Obligations.OnlyEdgeWritesStore := by
  intro i s t notEdge hx k
  obtain ⟨r, u, rfl, he⟩ := opEffect_of_exec hx
  rw [respond_sampleAt]
  rcases store_kept_or_sample_stored he with kept | ⟨l, now, _, isEdge, _⟩
  · exact sampleAt_congr kept k
  · exact absurd isEdge (notEdge l now)

end Sys2Proof.Proofs
end

section
/-! The encoding (30_encoding.md R90 to R98): an operation word is the concatenation of its format's fields, so that
decoding and encoding are each the one relation `ReadAs` between a word's fields and an operation. -/

namespace Sys2Proof.Proofs

open Sys2Proof.Machine

/-! ## Concatenation of bit vectors -/

/-- A slice is a concatenation where its upper and its lower part are. -/
theorem extractLsb'_eq_append_iff {v n m : Nat} (start : Nat) (x : BitVec n) (y : BitVec m) (w : BitVec v) :
    w.extractLsb' start (n + m) = x ++ y ↔ w.extractLsb' (start + m) n = x ∧ w.extractLsb' start m = y := by
  rw [← BitVec.extractLsb'_append_extractLsb'_eq_extractLsb' (x := w) (start₁ := start) (len₂ := n) rfl]
  refine ⟨fun h => ⟨?_, ?_⟩, fun ⟨hx, hy⟩ => by rw [hx, hy]⟩
  · simpa only [BitVec.extractLsb'_append_eq_left] using congrArg (BitVec.extractLsb' m n) h
  · simpa only [BitVec.extractLsb'_append_eq_right] using congrArg (BitVec.extractLsb' 0 m) h

theorem eq_append_iff {n m : Nat} (x : BitVec n) (y : BitVec m) (w : BitVec (n + m)) :
    w = x ++ y ↔ w.extractLsb' m n = x ∧ w.extractLsb' 0 m = y := by
  simpa only [Nat.zero_add, BitVec.extractLsb'_eq_self] using extractLsb'_eq_append_iff 0 x y w

theorem eq_append₃_iff {n m k : Nat} (x : BitVec n) (y : BitVec m) (z : BitVec k) (w : BitVec (n + m + k)) :
    w = x ++ y ++ z ↔ w.extractLsb' (k + m) n = x ∧ w.extractLsb' k m = y ∧ w.extractLsb' 0 k = z := by
  rw [eq_append_iff, extractLsb'_eq_append_iff, and_assoc]

theorem eq_append₄_iff {n m k l : Nat} (x : BitVec n) (y : BitVec m) (z : BitVec k) (u : BitVec l)
    (w : BitVec (n + m + k + l)) :
    w = x ++ y ++ z ++ u ↔
      w.extractLsb' (l + k + m) n = x ∧ w.extractLsb' (l + k) m = y ∧ w.extractLsb' l k = z ∧
      w.extractLsb' 0 l = u := by
  rw [eq_append_iff, extractLsb'_eq_append_iff, extractLsb'_eq_append_iff, and_assoc, and_assoc]

/-- A mask of ones over the upper two of three parts, compared with a match that is zero in the middle one, tests the
upper part and that the middle one is zero: the form of every row of the opcode map (30_encoding.md R97). -/
theorem and_mask_eq_match_iff {n m k : Nat} (x : BitVec n) (w : BitVec (n + m + k)) :
    w &&& (BitVec.allOnes (n + m) ++ 0#k) = x ++ 0#m ++ 0#k ↔ w.extractLsb' (k + m) n = x ∧ w.extractLsb' k m = 0#m := by
  have masked : w &&& (BitVec.allOnes (n + m) ++ 0#k) = w.extractLsb' k (n + m) ++ 0#k := by
    conv_lhs => rw [← BitVec.extractLsb'_append_extractLsb' (x := w), BitVec.and_append]
    rw [BitVec.and_allOnes, BitVec.and_zero]
  rw [masked, BitVec.append_left_inj, extractLsb'_eq_append_iff]

/-! ## The fields of an operation's word -/

/-- The fields of `w` are those of operation `i`: its opcode, zero in the reserved bits of its format, and its operands
(30_encoding.md R91 to R97). -/
def ReadAs (w : OpWord) : Instr → Prop
  | .arm => opField w = 0x1 ∧ reservedN w = 0
  | .enable => opField w = 0x2 ∧ reservedN w = 0
  | .edge level now => opField w = 0x3 ∧ reservedE w = 0 ∧ lField w = level.bit ∧ tField w = now
  | .disarm => opField w = 0x4 ∧ reservedN w = 0
  | .rdcnt => opField w = 0x5 ∧ reservedN w = 0
  | .rdsmp idx => opField w = 0x6 ∧ reservedI w = 0 ∧ idxField w = idx
  | .start pin now => opField w = 0x7 ∧ reservedS w = 0 ∧ pinField w = pin ∧ tField w = now
  | .tick now => opField w = 0x8 ∧ reservedT w = 0 ∧ tField w = now
  | .decode => opField w = 0x9 ∧ reservedN w = 0
  | .rdres => opField w = 0xA ∧ reservedN w = 0

/-- Each format of R91 to R95 lays its fields out from bit 47 down. -/
theorem eq_encode_iff_readAs (w : OpWord) (i : Instr) : w = encode i ↔ ReadAs w i := by
  cases i with
  | arm | enable | disarm | rdcnt | decode | rdres => exact eq_append_iff _ 0#44 w
  | edge level now => exact eq_append₄_iff 0x3#4 0#11 level.bit now w
  | rdsmp idx => exact eq_append₃_iff 0x6#4 0#36 idx w
  | start pin now => exact eq_append₄_iff 0x7#4 0#4 pin now w
  | tick now => exact eq_append₃_iff 0x8#4 0#12 now w

/-! ## Decode -/

theorem ifZero_eq_ok_iff {n : Nat} {reserved : BitVec n} {mnemonic : String} {i j : Instr} :
    ifZero reserved mnemonic i = .ok j ↔ reserved = 0 ∧ i = j := by
  unfold ifZero
  split_ifs with hz
  · exact ⟨fun h => ⟨hz, Except.ok.inj h⟩, fun ⟨_, h⟩ => congrArg _ h⟩
  · exact ⟨nofun, fun ⟨h, _⟩ => absurd h hz⟩

@[simp] theorem ofBit_bit (level : Level) : Level.ofBit level.bit = level := by cases level <;> rfl

@[simp] theorem bit_ofBit (b : BitVec 1) : (Level.ofBit b).bit = b := by
  rcases BitVec.eq_zero_or_eq_one b with rfl | rfl <;> rfl

/-- An opcode selects the row that accepts the word, and the row's format says which bits must be zero and which are
operands. -/
theorem readAs_of_decode {w : OpWord} {i : Instr} (h : decode w = .ok i) : ReadAs w i := by
  have opcode {op : BitVec 4} (hop : (opField w).toNat = op.toNat) : opField w = op := BitVec.eq_of_toNat_eq hop
  unfold decode at h
  split at h
  case h_11 => cases h -- a reserved opcode
  all_goals obtain ⟨mbz, rfl⟩ := ifZero_eq_ok_iff.mp h
  case h_3 edge => exact ⟨opcode edge, mbz, (bit_ofBit _).symm, rfl⟩
  case h_6 rdsmp => exact ⟨opcode rdsmp, mbz, rfl⟩
  case h_7 start => exact ⟨opcode start, mbz, rfl, rfl⟩
  case h_8 tick => exact ⟨opcode tick, mbz, rfl⟩
  all_goals next noOperands => exact ⟨opcode noOperands, mbz⟩

theorem decode_of_readAs {w : OpWord} {i : Instr} (h : ReadAs w i) : decode w = .ok i := by
  cases i with
  | arm | enable | disarm | rdcnt | decode | rdres =>
    obtain ⟨op, mbz⟩ := h
    simp [decode, op, ifZero, mbz]
  | edge level now =>
    obtain ⟨op, mbz, hl, rfl⟩ := h
    simp [decode, op, ifZero, mbz, hl]
  | rdsmp idx =>
    obtain ⟨op, mbz, rfl⟩ := h
    simp [decode, op, ifZero, mbz]
  | start pin now =>
    obtain ⟨op, mbz, rfl, rfl⟩ := h
    simp [decode, op, ifZero, mbz]
  | tick now =>
    obtain ⟨op, mbz, rfl⟩ := h
    simp [decode, op, ifZero, mbz]

/-- Decoding and encoding relate a word and an operation in the same way. -/
theorem decode_eq_ok_iff {w : OpWord} {i : Instr} : decode w = .ok i ↔ w = encode i :=
  Iff.trans ⟨readAs_of_decode, decode_of_readAs⟩ (eq_encode_iff_readAs w i).symm

/-- Settles O1: the word that decodes to `i` is its encoding. -/
theorem decodeOfEncode : Obligations.DecodeOfEncode := fun _ => decode_eq_ok_iff.mpr rfl

/-- Settles O2: a word that decodes to `i` has no bit that the encoding of `i` does not fix. -/
theorem encodeOfDecode : Obligations.EncodeOfDecode := fun _ _ h => (decode_eq_ok_iff.mp h).symm

/-- Settles O4: each of the words is the encoding of the operation named for it. -/
theorem specWordsDecode : Obligations.SpecWordsDecode := by
  unfold Obligations.SpecWordsDecode
  simp only [decode_eq_ok_iff]
  decide

/-! ## The rows of the opcode map -/

theorem ofBit_lField (w : OpWord) : Level.ofBit (lField w) = if w.getLsbD 32 then .high else .low := by
  have bit : lField w = BitVec.ofBool (w.getLsbD 32) := by
    refine BitVec.eq_of_getLsbD_eq fun j hj => ?_
    obtain rfl : j = 0 := by omega
    simp [lField]
  rw [bit]
  cases w.getLsbD 32 <;> rfl

/-- Every operation's own row is in the opcode map, and its word matches it. -/
theorem encode_matches_row (i : Instr) : ∃ r ∈ opcodeRows, encode i &&& r.2 = r.1 := by
  have row : Laws.EncodingRow.Statement i := by
    cases i with
    | arm => exact Laws.EncodingRow.arm
    | enable => exact Laws.EncodingRow.enable
    | edge level now => exact Laws.EncodingRow.edge level now
    | disarm => exact Laws.EncodingRow.disarm
    | rdcnt => exact Laws.EncodingRow.rdcnt
    | rdsmp idx => exact Laws.EncodingRow.rdsmp idx
    | start pin now => exact Laws.EncodingRow.start pin now
    | tick now => exact Laws.EncodingRow.tick now
    | decode => exact Laws.EncodingRow.decode
    | rdres => exact Laws.EncodingRow.rdres
  obtain ⟨r, hr, hm⟩ := row
  exact ⟨r, List.mem_of_getElem? hr, hm⟩

section
variable {w : OpWord}

/-- The six rows without operands: their mask keeps the whole word. -/
theorem decode_of_fullMask {i : Instr} (h : w &&& 0xFFFFFFFFFFFF = encode i) : decode w = .ok i :=
  decode_eq_ok_iff.mpr (BitVec.and_allOnes.symm.trans h)

theorem decode_of_rowEdge (h : w &&& 0xFFFE00000000 = 0x300000000000) :
    decode w = .ok (.edge (Level.ofBit (lField w)) (tField w)) := by
  obtain ⟨op, mbz⟩ := (and_mask_eq_match_iff (m := 11) (k := 33) 0x3#4 w).mp h
  exact decode_of_readAs ⟨op, mbz, (bit_ofBit _).symm, rfl⟩

theorem decode_of_rowRdsmp (h : w &&& 0xFFFFFFFFFF00 = 0x600000000000) : decode w = .ok (.rdsmp (idxField w)) := by
  obtain ⟨op, mbz⟩ := (and_mask_eq_match_iff (m := 36) (k := 8) 0x6#4 w).mp h
  exact decode_of_readAs ⟨op, mbz, rfl⟩

theorem decode_of_rowStart (h : w &&& 0xFF0000000000 = 0x700000000000) :
    decode w = .ok (.start (pinField w) (tField w)) := by
  obtain ⟨op, mbz⟩ := (and_mask_eq_match_iff (m := 4) (k := 40) 0x7#4 w).mp h
  exact decode_of_readAs ⟨op, mbz, rfl, rfl⟩

theorem decode_of_rowTick (h : w &&& 0xFFFF00000000 = 0x800000000000) : decode w = .ok (.tick (tField w)) := by
  obtain ⟨op, mbz⟩ := (and_mask_eq_match_iff (m := 12) (k := 32) 0x8#4 w).mp h
  exact decode_of_readAs ⟨op, mbz, rfl⟩

/-- Each row of the opcode map has an operation to which its words decode. -/
theorem exists_decode_of_row {r : OpWord × OpWord} (hr : r ∈ opcodeRows) (hm : w &&& r.2 = r.1) :
    ∃ i, decode w = .ok i := by
  simp only [opcodeRows, List.mem_cons, List.not_mem_nil, or_false] at hr
  rcases hr with rfl | rfl | rfl | rfl | rfl | rfl | rfl | rfl | rfl | rfl
  · exact ⟨_, decode_of_fullMask (i := .arm) hm⟩
  · exact ⟨_, decode_of_fullMask (i := .enable) hm⟩
  · exact ⟨_, decode_of_rowEdge hm⟩
  · exact ⟨_, decode_of_fullMask (i := .disarm) hm⟩
  · exact ⟨_, decode_of_fullMask (i := .rdcnt) hm⟩
  · exact ⟨_, decode_of_rowRdsmp hm⟩
  · exact ⟨_, decode_of_rowStart hm⟩
  · exact ⟨_, decode_of_rowTick hm⟩
  · exact ⟨_, decode_of_fullMask (i := .decode) hm⟩
  · exact ⟨_, decode_of_fullMask (i := .rdres) hm⟩

end

theorem exists_decode_iff_row (w : OpWord) : (∃ i, decode w = .ok i) ↔ ∃ r ∈ opcodeRows, w &&& r.2 = r.1 := by
  refine ⟨fun ⟨i, hi⟩ => ?_, fun ⟨_, hr, hm⟩ => exists_decode_of_row hr hm⟩
  rw [decode_eq_ok_iff.mp hi]
  exact encode_matches_row i

/-- Settles O3: a word that decodes is the encoding of its operation, which matches the operation's row; a word that
matches a row has that row's fields. -/
theorem decodeAcceptsOpcodeRows : Obligations.DecodeAcceptsOpcodeRows := by
  intro w
  rw [← ofBit_lField w]
  exact ⟨exists_decode_iff_row w, fun h => decode_of_fullMask h, fun h => decode_of_fullMask h, decode_of_rowEdge,
    fun h => decode_of_fullMask h, fun h => decode_of_fullMask h, decode_of_rowRdsmp, decode_of_rowStart,
    decode_of_rowTick, fun h => decode_of_fullMask h, fun h => decode_of_fullMask h⟩

/-! ## Words that match no row -/

theorem receive_of_decode_error {o : Issued} {why : DecodeError} (s : State) (hd : decode o.word = .error why) :
    receive o s = .refuse (.reservedEncoding why) := by
  simp only [receive, hd]

theorem step_of_fetch_refuse {s : State} {r : Refusal} (hf : fetch s = .refuse r) : step s = .refused r := by
  simp only [step, hf]

/-- Settles O7: a word that matches no row does not decode, and the fetch refuses what does not decode. -/
theorem reservedWordRefused : Obligations.ReservedWordRefused := by
  intro s o rest hp noRow
  cases hd : decode o.word with
  | error why =>
    exact ⟨why, step_of_fetch_refuse ((fetch_of_pending_op hp).trans (receive_of_decode_error _ hd))⟩
  | ok i =>
    obtain ⟨r, hr, hm⟩ := (exists_decode_iff_row o.word).mp ⟨i, hd⟩
    exact absurd hm (noRow r hr)

/-! ## The RDCNT response -/

/-- Nine bits hold -1 and every number of samples up to 255 (30_encoding.md R102). -/
theorem countWord_toInt {c : Cursor} (hc : c.samples ≤ 255) : (countWord c).toInt = c.toInt := by
  have range : -1 ≤ c.toInt ∧ c.toInt ≤ 255 := by
    cases c with
    | waiting => decide
    | stored n => simp only [Cursor.samples, Cursor.toInt] at hc ⊢; omega
  exact BitVec.toInt_ofInt_eq_self (by decide) (by omega) (by omega)

/-- Settles O21: RDCNT responds with the word of `count`. -/
theorem rdcntReturnsCount : Obligations.RdcntReturnsCount :=
  fun s hc => ⟨countWord s.count, rfl, countWord_toInt hc⟩

end Sys2Proof.Proofs
end

section
/-! The Edge Capture Buffer (40_capture_buffer.md): an equation of EDGE for each of its steps and its inversion, what the
stored durations sum to, the levels that are stored, and the entry that RDSMP returns. -/

namespace Sys2Proof.Proofs

open Sys2Proof.Machine

/-! ## The cursor and the gate -/

/-- Settles O13: ARM runs `armBuffer`, whose two writes these are. -/
theorem armResetsCursorAndFilter : Obligations.ArmResetsCursorAndFilter := fun _ => rfl

/-- Settles O14: ENABLE runs `openGate`. -/
theorem enableOpensGate : Obligations.EnableOpensGate := fun _ => rfl

/-- Settles O15: DISARM runs `closeGate`. -/
theorem disarmClosesGate : Obligations.DisarmClosesGate := fun _ => rfl

/-! ## EDGE, a step of R123 at a time -/

section
variable {l : Level} {now : Micros} {s t : State}

theorem exec_edge_of_closed (closed : s.cbEn = false) : exec (.edge l now) s = .next (respond .none s) := by
  simp [exec, execEdge, closed]

theorem exec_edge_of_open (gate : s.cbEn = true) :
    exec (.edge l now) s = .next (respond .none (acceptEdge l now s)) := by
  simp [exec, execEdge, gate]

theorem acceptEdge_of_duplicate (dup : s.lastLevel = some l) : acceptEdge l now s = s := by
  simp [acceptEdge, isDuplicate, dup]

theorem acceptEdge_of_waiting (new : s.lastLevel ≠ some l) (waiting : s.count = .waiting) :
    acceptEdge l now s = acceptArmingEdge l now s := by
  simp [acceptEdge, isDuplicate, new, waiting]

theorem acceptEdge_of_room {n : Nat} (new : s.lastLevel ≠ some l) (stored : s.count = .stored n)
    (room : n < s.cfg.capacity) : acceptEdge l now s = storeSample n l now s := by
  simp [acceptEdge, isDuplicate, new, stored, room]

theorem acceptEdge_of_full {n : Nat} (stored : s.count = .stored n) (full : s.cfg.capacity ≤ n) :
    acceptEdge l now s = s := by
  simp [acceptEdge, stored, Nat.not_lt.mpr full]

/-- Behind a gate in either position an EDGE that the open gate would drop is dropped. -/
theorem exec_edge_of_dropped (dropped : acceptEdge l now s = s) :
    exec (.edge l now) s = .next (respond .none s) := by
  simp [exec, execEdge, dropped]

/-- The inversion of EDGE: it is dropped, or it is the arming edge, or it stores a sample at index `count`. -/
theorem exec_edge_cases (hx : exec (.edge l now) s = .next t) :
    t = respond .none s ∨
    (s.count = .waiting ∧ t = respond .none (acceptArmingEdge l now s)) ∨
    ∃ n, s.lastLevel ≠ some l ∧ s.count = .stored n ∧ t = respond .none (storeSample n l now s) := by
  cases gate : s.cbEn with
  | false => exact .inl (Host.Outcome.next.inj ((exec_edge_of_closed gate).symm.trans hx)).symm
  | true =>
    obtain rfl := Host.Outcome.next.inj ((exec_edge_of_open gate).symm.trans hx)
    rcases acceptEdge_cases l now s with ⟨_, e⟩ | ⟨_, waiting, e⟩ | ⟨n, new, stored, _, e⟩ | ⟨_, _, _, _, e⟩ <;> rw [e]
    · exact .inl rfl
    · exact .inr (.inl ⟨waiting, rfl⟩)
    · exact .inr (.inr ⟨n, new, stored, rfl⟩)
    · exact .inl rfl

end

/-- Settles O16: the gate of step 0, the duplicate of step 2, the full buffer of step 5. -/
theorem edgeWithoutEffect : Obligations.EdgeWithoutEffect := by
  rintro l now s (closed | dup | ⟨n, stored, full⟩)
  · exact exec_edge_of_closed closed
  · exact exec_edge_of_dropped (acceptEdge_of_duplicate dup)
  · exact exec_edge_of_dropped (acceptEdge_of_full stored full)

/-- Settles O17: step 3 behind an open gate. -/
theorem armingEdgeRecorded : Obligations.ArmingEdgeRecorded := by
  intro l now s gate new waiting
  rw [exec_edge_of_open gate, acceptEdge_of_waiting new waiting]
  rfl

/-! ## EDGE after DISARM -/

/-- A closed gate drops a whole list of EDGEs, each of which answers nothing. -/
theorem execAll_edges_of_closed {s : State} (closed : s.cbEn = false) (silent : s.response = .none)
    (es : List (Level × Micros)) : execAll (es.map fun e => .edge e.1 e.2) s = .next s := by
  have same : respond .none s = s := by rw [respond, ← silent]
  induction es with
  | nil => rfl
  | cons e es ih =>
    rw [List.map_cons, execAll, exec_edge_of_closed closed, same]
    exact ih

/-- Settles O20: DISARM leaves a closed gate and no response. -/
theorem edgesAfterDisarmDropped : Obligations.EdgesAfterDisarmDropped :=
  fun s es => execAll_edges_of_closed (s := { s with cbEn := false, response := .none }) rfl rfl es

/-! ## The stored sample -/

/-- The clock difference is that of R9 on numbers (40_capture_buffer.md R125). -/
theorem elapsed_toNat (now since : Micros) : (elapsed now since).toNat = microsSince now since := by
  have := since.isLt
  rw [elapsed, microsSince, BitVec.toNat_sub]
  congr 1
  omega

/-- Settles O18: step 4 behind an open gate, and the write port of the store. -/
theorem edgeStoresSample : Obligations.EdgeStoresSample := by
  intro l p now s n gate last new stored room
  have differs : s.lastLevel ≠ some l := fun h => new (Option.some.inj (last.symm.trans h))
  refine ⟨respond .none (storeSample n l now s), ?_, rfl, ?_, ?_, fun k other => ?_⟩
  · rw [exec_edge_of_open gate, acceptEdge_of_room differs stored room]
  · rw [respond_sampleAt, storeSample_sampleAt, if_pos rfl, elapsed_toNat]
  · rw [respond_sampleAt, storeSample_sampleAt, if_pos rfl, last]
    rfl
  · rw [respond_sampleAt, storeSample_sampleAt, if_neg other]

/-! ## The sum of the durations -/

theorem durationSum_congr {s t : State} {n : Nat} (same : ∀ k < n, t.sampleAt k = s.sampleAt k) :
    durationSum t n = durationSum s n := by
  induction n with
  | zero => rfl
  | succ n ih =>
    rw [durationSum, durationSum, ih fun k hk => same k (hk.trans n.lt_succ_self), same n n.lt_succ_self]

theorem durationSum_respond (r : Response) (s : State) (n : Nat) : durationSum (respond r s) n = durationSum s n :=
  durationSum_congr fun k _ => respond_sampleAt s r k

/-- A sample stored at index `n` adds the time since `last_time` to the sum of the `n` before it. -/
theorem durationSum_storeSample (n : Nat) (l : Level) (now : Micros) (s : State) :
    durationSum (storeSample n l now s) (n + 1) = durationSum s n + (now - s.lastTime) := by
  have below : durationSum (storeSample n l now s) n = durationSum s n :=
    durationSum_congr fun k hk => by rw [storeSample_sampleAt, if_neg hk.ne]
  rw [durationSum, below, storeSample_sampleAt, if_pos rfl, elapsed]

/-- Settles O28: the sample that an EDGE stores moves `last_time` and the sum by the same difference. -/
theorem durationsTelescope : Obligations.DurationsTelescope := by
  intro l now s t armed hx
  rcases exec_edge_cases hx with rfl | ⟨waiting, _⟩ | ⟨n, _, stored, rfl⟩
  · rw [durationSum_respond, respond_lastTime, respond_count]
  · exact absurd waiting armed
  · rw [durationSum_respond, stored]
    calc now - durationSum (storeSample n l now s) (n + 1)
        = now - (durationSum s n + (now - s.lastTime)) := by rw [durationSum_storeSample]
      _ = s.lastTime - durationSum s n := by ring

/-! ## The stored levels -/

/-- The level of the sample that ends with an edge to level `l`: that of the edge, or the one it left, which is the
other (00_scope.md R7, 40_capture_buffer.md R124). -/
def endedLevel (sense : LevelSense) (l : Level) : Level :=
  match sense with
  | .after => l
  | .before => l.other

theorem eq_other_of_ne : ∀ {l p : Level}, p ≠ l → p = l.other
  | .low, .high, _ | .high, .low, _ => rfl
  | .low, .low, differ | .high, .high, differ => absurd rfl differ

theorem other_involutive : Function.Involutive Level.other
  | .low | .high => rfl

theorem endedLevel_injective (sense : LevelSense) : Function.Injective (endedLevel sense) := by
  cases sense with
  | after => exact fun _ _ same => same
  | before => exact other_involutive.injective

/-- What EDGE stores after the filter has let it pass. -/
theorem storedLevel_eq_endedLevel (sense : LevelSense) {l p : Level} (differ : p ≠ l) :
    storedLevel sense (some p) l = endedLevel sense l := by
  cases sense with
  | after => rfl
  | before => exact eq_other_of_ne differ

theorem newest_eq_endedLevel {s : State} (h : LevelsAlternate s) {n : Nat} {p : Level}
    (stored : s.count = .stored (n + 1)) (last : s.lastLevel = some p) :
    (s.sampleAt n).level = endedLevel s.cfg.levelSense p := h.newest n p stored last

/-- The two states agree on what the alternation of the stored levels is about. -/
structure SameCapture (s t : State) : Prop where
  count : t.count = s.count
  lastLevel : t.lastLevel = s.lastLevel
  store : t.store = s.store
  cfg : t.cfg = s.cfg

theorem levelsAlternate_of_sameCapture {s t : State} (h : LevelsAlternate s) (same : SameCapture s t) :
    LevelsAlternate t := by
  obtain ⟨count, lastLevel, store, cfg⟩ := same
  refine ⟨fun i hi => ?_, fun n p stored last => ?_⟩
  · rw [sampleAt_congr store, sampleAt_congr store]
    exact h.alternate i (count ▸ hi)
  · rw [sampleAt_congr store, cfg]
    exact h.newest n p (count ▸ stored) (lastLevel ▸ last)

theorem levelsAlternate_respond {s : State} (r : Response) (h : LevelsAlternate s) : LevelsAlternate (respond r s) :=
  levelsAlternate_of_sameCapture h ⟨rfl, rfl, rfl, rfl⟩

theorem startSession_waiting_or_sameCapture (p : PinNum) (now : Micros) (s : State) :
    (startSession p now s).count = .waiting ∨ SameCapture s (startSession p now s) := by
  obtain ⟨_, e | e | e⟩ := startSession_updates p now s <;> rw [e]
  · exact .inr ⟨rfl, rfl, rfl, rfl⟩
  · exact .inl rfl
  · exact .inl rfl

theorem advance_sameCapture (now : Micros) (s : State) : SameCapture s (advance now s) := by
  obtain e | ⟨_, ⟨_, e⟩ | ⟨_, e⟩ | ⟨_, e⟩ | ⟨_, e⟩⟩ := advance_updates now s <;> rw [e] <;> exact ⟨rfl, rfl, rfl, rfl⟩

theorem decodeBuffer_sameCapture (s : State) : SameCapture s (decodeBuffer s) := by
  obtain ⟨_, _, _, _, _, e, _⟩ := decodeFinished_decodeBuffer s
  rw [e]
  exact ⟨rfl, rfl, rfl, rfl⟩

/-- Every operation but EDGE empties the capture or keeps it. -/
theorem waiting_or_sameCapture_of_opEffect {i : Instr} {s t : State} (notEdge : ∀ l now, i ≠ .edge l now)
    (he : OpEffect s i t) : t.count = .waiting ∨ SameCapture s t := by
  cases he with
  | arm => exact .inl rfl
  | enable | disarm | unchanged | freeValue => exact .inr ⟨rfl, rfl, rfl, rfl⟩
  | armingEdge l now | storedEdge l now => exact absurd rfl (notEdge l now)
  | session pin now => exact startSession_waiting_or_sameCapture pin now s
  | tick now => exact .inr (advance_sameCapture now s)
  | decode => exact .inr (decodeBuffer_sameCapture s)

/-- After the arming edge nothing is stored yet. -/
theorem levelsAlternate_acceptArmingEdge (l : Level) (now : Micros) (s : State) :
    LevelsAlternate (acceptArmingEdge l now s) :=
  ⟨fun _ hi => absurd hi (Nat.not_lt_zero _), nofun⟩

/-- An edge to `l` after one to `p` stores the level that ends with `l`, and the newest before it ended with `p`. -/
theorem levelsAlternate_storeSample {s : State} {n : Nat} {l p : Level} (now : Micros) (h : LevelsAlternate s)
    (stored : s.count = .stored n) (last : s.lastLevel = some p) (differ : p ≠ l) :
    LevelsAlternate (storeSample n l now s) := by
  have atEnd : ((storeSample n l now s).sampleAt n).level = endedLevel s.cfg.levelSense l := by
    rw [storeSample_sampleAt, if_pos rfl, last, storedLevel_eq_endedLevel _ differ]
  have below : ∀ k < n, (storeSample n l now s).sampleAt k = s.sampleAt k := fun k hk => by
    rw [storeSample_sampleAt, if_neg hk.ne]
  refine ⟨fun i hi => ?_, fun m q hm hq => ?_⟩
  · rcases Nat.lt_succ_iff_lt_or_eq.mp hi with inside | rfl
    · rw [below _ inside, below i (Nat.lt_of_succ_lt inside)]
      exact h.alternate i (by rwa [stored])
    · rw [below i i.lt_succ_self, atEnd, newest_eq_endedLevel h stored last]
      exact (endedLevel_injective _).ne differ
  · cases hm
    cases hq
    exact atEnd

/-- `last_level` is set once the arming edge has been seen. -/
theorem exists_lastLevel_of_stored {s : State} (hInv : Inv s) {n : Nat} (stored : s.count = .stored n) :
    ∃ p, s.lastLevel = some p := by
  refine Option.ne_none_iff_exists'.mp fun unset => ?_
  have waiting := hInv.filter.mp unset
  rw [stored] at waiting
  cases waiting

theorem edge_keeps_levelsAlternate {l : Level} {now : Micros} {s t : State} (hInv : Inv s) (h : LevelsAlternate s)
    (hx : exec (.edge l now) s = .next t) : LevelsAlternate t := by
  rcases exec_edge_cases hx with rfl | ⟨_, rfl⟩ | ⟨n, new, stored, rfl⟩
  · exact levelsAlternate_respond .none h
  · exact levelsAlternate_respond .none (levelsAlternate_acceptArmingEdge l now s)
  · obtain ⟨p, last⟩ := exists_lastLevel_of_stored hInv stored
    have differ : p ≠ l := fun same => new (same ▸ last)
    exact levelsAlternate_respond .none (levelsAlternate_storeSample now h stored last differ)

theorem exec_keeps_levelsAlternate {i : Instr} {s t : State} (hInv : Inv s) (h : LevelsAlternate s)
    (hx : exec i s = .next t) : LevelsAlternate t := by
  by_cases isEdge : ∃ l now, i = .edge l now
  · obtain ⟨l, now, rfl⟩ := isEdge
    exact edge_keeps_levelsAlternate hInv h hx
  · obtain ⟨r, u, rfl, he⟩ := opEffect_of_exec hx
    rcases waiting_or_sameCapture_of_opEffect (fun l now e => isEdge ⟨l, now, e⟩) he with waiting | same
    · exact levelsAlternate_of_waiting waiting
    · exact levelsAlternate_respond r (levelsAlternate_of_sameCapture h same)

/-- Settles O31: a step rests, resets to a buffer with nothing stored, or runs one operation. -/
theorem stepKeepsLevelsAlternate : Obligations.StepKeepsLevelsAlternate := by
  intro s t hInv h hx
  rcases step_next_cases hx with ⟨_, rfl⟩ | ⟨rest, _, rfl⟩ | ⟨o, rest, i, _, _, _, hi⟩
  · exact h
  · exact levelsAlternate_of_waiting rfl
  · have inv : Inv { s with pending := rest, answers := o.answers } := { hInv with }
    exact exec_keeps_levelsAlternate inv (levelsAlternate_of_sameCapture h ⟨rfl, rfl, rfl, rfl⟩) hi

/-! ## RDSMP -/

/-- Settles O24: the first test of RDSMP. -/
theorem rdsmpBeyondCapacityRefused : Obligations.RdsmpBeyondCapacityRefused := fun _ _ beyond => if_pos beyond

/-- The word of an entry is its level above its duration (20_memory.md R61). -/
theorem word_fields (v : Sample) : v.word.extractLsb' 32 1 = v.level.bit ∧ v.word.extractLsb' 0 32 = v.duration :=
  (eq_append_iff v.level.bit v.duration v.word).mp rfl

/-- Settles O22: the response is the entry's word, whose two fields are its level and its duration. -/
theorem rdsmpReturnsEntry : Obligations.RdsmpReturnsEntry := by
  intro idx s n within stored below
  refine ⟨(s.sampleAt idx.toNat).word, ?_, word_fields _⟩
  have belowCount : (idx.toNat : Int) < s.count.toInt := by rw [stored]; exact Int.ofNat_lt.mpr below
  rw [exec, execRdsmp, if_neg (Nat.not_le.mpr within), if_pos belowCount]
  rfl

/-- Settles O23: the last branch of RDSMP draws its value. -/
theorem rdsmpOfStaleEntryRuns : Obligations.RdsmpOfStaleEntryRuns := by
  intro idx s within stale
  refine ⟨Config.staleEntry s.draws, ?_⟩
  rw [exec, execRdsmp, if_neg (Nat.not_le.mpr within), if_neg (Int.not_lt.mpr stale)]
  rfl

end Sys2Proof.Proofs
end

section
/-! The Reset Sequencer (41_reset_sequencer.md): an equation of START and of TICK for each way through them, the rows of
the transition relation as their common inversion, and from these the balance of the claims and the whole session. -/

namespace Sys2Proof.Proofs

open Sys2Proof.Machine

/-! ## Running and resting states -/

theorem running_eq_true_iff (q : SeqState) : q.running = true ↔ q = .lowHold ∨ q = .settle ∨ q = .observe := by
  cases q <;> decide

theorem running_eq_false_iff (q : SeqState) : q.running = false ↔ q = .idle ∨ q = .done ∨ q = .failed := by
  cases q <;> decide

/-! ## START, a branch of R152 at a time -/

section
variable {pin : PinNum} {now : Micros} {s : State}

theorem exec_start_of_running (running : s.seqState.running = true) :
    exec (.start pin now) s = .next (respond (.start rejectedBusyWord) s) := by
  simp [exec, execStart, running]

theorem exec_start_of_inadmissible (resting : s.seqState.running = false) (above : s.cfg.pinMax < pin.toNat) :
    exec (.start pin now) s = .next (respond (.start rejectedInvalidWord) s) := by
  simp [exec, execStart, resting, above]

theorem exec_start_of_admissible (resting : s.seqState.running = false) (admissible : pin.toNat ≤ s.cfg.pinMax) :
    exec (.start pin now) s = .next (respond (.start acceptedWord) (startSession pin now s)) := by
  simp [exec, execStart, resting, Nat.not_lt.mpr admissible]

theorem startSession_of_claim_fail (fail : s.answers.claim = .fail) :
    startSession pin now s =
      raiseFail false .hardwareAcquisitionFailure
        { callDriver (.claim pin .fail) (openSession pin s) with seqState := .failed } := by
  simpa [fail] using startSession_cases pin now s

theorem startSession_of_claim_ok (ok : s.answers.claim = .ok) :
    startSession pin now s = registerCallback pin now (callDriver (.claim pin .ok) (openSession pin s)) := by
  simpa [ok] using startSession_cases pin now s

theorem registerCallback_of_onTransition_fail (fail : s.answers.onTransition = .fail) :
    registerCallback pin now s =
      abort (callDriver (.onTransition pin .fail) (armBuffer { s with pinClaimed := true })) := by
  simpa [fail] using registerCallback_cases pin now s

theorem registerCallback_of_onTransition_ok (ok : s.answers.onTransition = .ok) :
    registerCallback pin now s =
      driveLow pin now (openGate (callDriver (.onTransition pin .ok) (armBuffer { s with pinClaimed := true }))) := by
  simpa [ok] using registerCallback_cases pin now s

theorem driveLow_of_setDirection_fail (fail : s.answers.setDirection = .fail) :
    driveLow pin now s = abort (callDriver (.setDirection pin .output .fail) s) := by
  simpa [fail] using driveLow_cases pin now s

theorem driveLow_of_setDirection_ok (ok : s.answers.setDirection = .ok) :
    driveLow pin now s =
      { callDriver (.write pin .low) { callDriver (.setDirection pin .output .ok) s with pinOe := true } with
        pinO := .low, seqT0 := now, seqState := .lowHold } := by
  simpa [ok] using driveLow_cases pin now s

end

/-- Settles O32: the first test of START. -/
theorem startRejectsBusy : Obligations.StartRejectsBusy :=
  fun _ _ s running => exec_start_of_running ((running_eq_true_iff s.seqState).mpr running)

/-- Settles O33: the second test of START. -/
theorem startRejectsInvalidPin : Obligations.StartRejectsInvalidPin :=
  fun _ _ s resting above => exec_start_of_inadmissible ((running_eq_false_iff s.seqState).mpr resting) above

/-- Settles O34: three answers ok lead past every way out to the line driven low. -/
theorem startBeginsSession : Obligations.StartBeginsSession := by
  intro pin now s resting admissible answers
  rw [exec_start_of_admissible ((running_eq_false_iff _).mpr resting) admissible,
    startSession_of_claim_ok (by rw [answers]), registerCallback_of_onTransition_ok (by simp [answers]),
    driveLow_of_setDirection_ok (by simp [answers])]
  simp only [callDriver, openGate, armBuffer, openSession, List.append_assoc]
  rfl

/-- Settles O35: the claim has nothing to undo; the two later calls abort, behind the gate as it was and behind the open
gate. -/
theorem startFailurePaths : Obligations.StartFailurePaths := by
  intro pin now s resting admissible
  rw [exec_start_of_admissible ((running_eq_false_iff _).mpr resting) admissible]
  refine ⟨fun claim => ?_, fun claim callback => ?_, fun claim callback direction => ?_⟩
  · rw [startSession_of_claim_fail claim]
    rfl
  · rw [startSession_of_claim_ok claim, registerCallback_of_onTransition_fail (by simp [callback]), abort_eq]
    simp only [callDriver_calls, armBuffer_calls, openSession_calls, List.append_assoc]
    rfl
  · rw [startSession_of_claim_ok claim, registerCallback_of_onTransition_ok (by simp [callback]),
      driveLow_of_setDirection_fail (by simp [direction]), abort_eq]
    simp only [callDriver_calls, openGate_calls, armBuffer_calls, openSession_calls, List.append_assoc]
    rfl

/-! ## TICK, a state of R155 at a time -/

section
variable {now : Micros} {s : State}

theorem exec_tick : exec (.tick now) s = .next (respond .none (advance now s)) := rfl

/-- A TICK changes nothing but where the interval of a running state has passed. -/
theorem advance_eq_self (low : s.seqState = .lowHold → microsSince now s.seqT0 < s.cfg.tLow)
    (settle : s.seqState = .settle → microsSince now s.seqT0 < s.cfg.tSettle)
    (observe : s.seqState = .observe → microsSince now s.seqT0 < s.cfg.tWindow) : advance now s = s := by
  have ways := advance_cases now s
  rw [elapsed_toNat] at ways
  rcases ways with ⟨hs, passed, _⟩ | ⟨hs, passed, _⟩ | ⟨hs, passed, _⟩ | ⟨_, _, _, e⟩
  · exact absurd passed (Nat.not_le.mpr (low hs))
  · exact absurd passed (Nat.not_le.mpr (settle hs))
  · exact absurd passed (Nat.not_le.mpr (observe hs))
  · exact e

theorem advance_of_lowHold (hs : s.seqState = .lowHold) (passed : s.cfg.tLow ≤ microsSince now s.seqT0) :
    advance now s = releaseHigh now s := by
  simp [advance, hs, elapsed_toNat, passed]

theorem advance_of_settle (hs : s.seqState = .settle) (passed : s.cfg.tSettle ≤ microsSince now s.seqT0) :
    advance now s = handOver now s := by
  simp [advance, hs, elapsed_toNat, passed]

theorem advance_of_observe (hs : s.seqState = .observe) (passed : s.cfg.tWindow ≤ microsSince now s.seqT0) :
    advance now s = endCapture s := by
  simp [advance, hs, elapsed_toNat, passed]

theorem handOver_of_setDirection_fail (fail : s.answers.setDirection = .fail) :
    handOver now s = abort (callDriver (.setDirection s.seqPin .input .fail) s) := by
  simpa [fail] using handOver_cases now s

theorem handOver_of_setDirection_ok (ok : s.answers.setDirection = .ok) :
    handOver now s =
      { callDriver (.setDirection s.seqPin .input .ok) s with pinOe := false, seqT0 := now, seqState := .observe } := by
  simpa [ok] using handOver_cases now s

end

/-- Settles O36: a resting state has no interval that could pass. -/
theorem tickRestingDoesNothing : Obligations.TickRestingDoesNothing := by
  intro now s resting
  have still : advance now s = s := by
    rcases resting with hs | hs | hs <;> exact advance_eq_self (by simp [hs]) (by simp [hs]) (by simp [hs])
  rw [exec_tick, still]
  rfl

/-- Settles O37: in each running state the one interval that counts has not passed. -/
theorem tickBeforeIntervalDoesNothing : Obligations.TickBeforeIntervalDoesNothing := by
  intro now s early
  have still : advance now s = s := by
    rcases early with ⟨hs, early⟩ | ⟨hs, early⟩ | ⟨hs, early⟩ <;>
      exact advance_eq_self (by simp [hs, early]) (by simp [hs, early]) (by simp [hs, early])
  rw [exec_tick, still]
  rfl

/-- Settles O38: the transition out of `LOW_HOLD`. -/
theorem tickReleasesLineHigh : Obligations.TickReleasesLineHigh := by
  intro now s hs passed
  rw [exec_tick, advance_of_lowHold hs passed]
  rfl

/-- Settles O39: the transition out of `SETTLE`, by the answer to its driver call. -/
theorem tickHandsLineOver : Obligations.TickHandsLineOver := by
  intro now s hs passed
  rw [exec_tick, advance_of_settle hs passed]
  refine ⟨fun ok => ?_, fun fail => ?_⟩
  · rw [handOver_of_setDirection_ok ok]
    rfl
  · rw [handOver_of_setDirection_fail fail, abort_eq, callDriver_calls, List.append_assoc]
    rfl

/-- Settles O40: the transition out of `OBSERVE`. -/
theorem tickEndsCapture : Obligations.TickEndsCapture := by
  intro now s hs passed
  rw [exec_tick, advance_of_observe hs passed, endCapture_eq]
  rfl

/-! ## Claims and releases in a record of driver calls -/

/-- The claims held after a record and what follows it. -/
theorem claimsHeld_append (cs ds : List DrvCall) : claimsHeld (cs ++ ds) = claimsHeld cs + claimsHeld ds := by
  fun_induction claimsHeld cs with
  | case1 => simp
  | case2 _ cs ih => simp only [List.cons_append, claimsHeld, ih]; omega
  | case3 _ cs ih => simp only [List.cons_append, claimsHeld, ih]; omega
  | case4 _ cs ih | case5 _ _ _ cs ih | case6 _ _ cs ih | case7 _ _ cs ih | case8 _ cs ih => exact ih

/-- The call that Abort makes behind an open gate only is neither a claim nor a release. -/
theorem claimsHeld_offTransition_if (gate : Bool) (pin : PinNum) :
    claimsHeld (if gate then [.offTransition pin] else []) = 0 := by
  cases gate <;> rfl

/-! ## The transition relation -/

/-- What an operation leaves of the sequencer: one row of R160 with its guard, and what the calls it makes on the way
add to the claims held. -/
inductive SequencerRow (s t : State) : Instr → Prop
  | stay (i : Instr) (state : t.seqState = s.seqState) (claims : claimsHeld t.calls = claimsHeld s.calls) :
      SequencerRow s t i
  | sessionBegins (pin : PinNum) (now : Micros) (resting : s.seqState.running = false)
      (admissible : pin.toNat ≤ s.cfg.pinMax) (answers : s.answers = ⟨.ok, .ok, .ok⟩) (state : t.seqState = .lowHold)
      (claims : claimsHeld t.calls = claimsHeld s.calls + 1) : SequencerRow s t (.start pin now)
  | sessionFails (pin : PinNum) (now : Micros) (resting : s.seqState.running = false)
      (admissible : pin.toNat ≤ s.cfg.pinMax) (answers : s.answers ≠ ⟨.ok, .ok, .ok⟩) (state : t.seqState = .failed)
      (claims : claimsHeld t.calls = claimsHeld s.calls) : SequencerRow s t (.start pin now)
  | releaseHigh (now : Micros) (fromLow : s.seqState = .lowHold) (passed : s.cfg.tLow ≤ microsSince now s.seqT0)
      (state : t.seqState = .settle) (claims : claimsHeld t.calls = claimsHeld s.calls) : SequencerRow s t (.tick now)
  | handOver (now : Micros) (fromSettle : s.seqState = .settle) (passed : s.cfg.tSettle ≤ microsSince now s.seqT0)
      (answer : s.answers.setDirection = .ok) (state : t.seqState = .observe)
      (claims : claimsHeld t.calls = claimsHeld s.calls) : SequencerRow s t (.tick now)
  | handOverFails (now : Micros) (fromSettle : s.seqState = .settle) (passed : s.cfg.tSettle ≤ microsSince now s.seqT0)
      (answer : s.answers.setDirection = .fail) (state : t.seqState = .failed)
      (claims : claimsHeld t.calls = claimsHeld s.calls - 1) : SequencerRow s t (.tick now)
  | endCapture (now : Micros) (fromObserve : s.seqState = .observe) (passed : s.cfg.tWindow ≤ microsSince now s.seqT0)
      (state : t.seqState = .done) (claims : claimsHeld t.calls = claimsHeld s.calls - 1) : SequencerRow s t (.tick now)

/-- The three calls with an answer are made in turn, and the first that fails ends START. -/
theorem answers_cases (a : DrvAnswers) :
    a = ⟨.ok, .ok, .ok⟩ ∨ a.claim = .fail ∨ (a.claim = .ok ∧ a.onTransition = .fail) ∨
      (a.claim = .ok ∧ a.onTransition = .ok ∧ a.setDirection = .fail) := by
  obtain ⟨claim, callback, direction⟩ := a
  cases claim with
  | fail => exact .inr (.inl rfl)
  | ok =>
    cases callback with
    | fail => exact .inr (.inr (.inl ⟨rfl, rfl⟩))
    | ok =>
      cases direction with
      | fail => exact .inr (.inr (.inr ⟨rfl, rfl, rfl⟩))
      | ok => exact .inl rfl

theorem exec_next_unique {i : Instr} {s t u : State} (ht : exec i s = .next t) (hu : exec i s = .next u) : t = u :=
  Host.Outcome.next.inj (ht.symm.trans hu)

/-- An accepted START begins a session, or fails in one of three ways, each of which has released what it claimed. -/
theorem sequencerRow_of_session {pin : PinNum} {now : Micros} {s t : State} (resting : s.seqState.running = false)
    (admissible : pin.toNat ≤ s.cfg.pinMax) (hx : exec (.start pin now) s = .next t) :
    SequencerRow s t (.start pin now) := by
  have atRest := (running_eq_false_iff _).mp resting
  obtain ⟨claimFails, callbackFails, directionFails⟩ := startFailurePaths pin now s atRest admissible
  rcases answers_cases s.answers with ok | claim | ⟨claim, callback⟩ | ⟨claim, callback, direction⟩
  · obtain rfl := exec_next_unique (startBeginsSession pin now s atRest admissible ok) hx
    exact .sessionBegins _ _ resting admissible ok rfl (by simp [claimsHeld_append, claimsHeld])
  · obtain rfl := exec_next_unique (claimFails claim) hx
    refine .sessionFails _ _ resting admissible (fun ok => by simp [ok] at claim) rfl ?_
    simp [claimsHeld_append, claimsHeld]
  · obtain rfl := exec_next_unique (callbackFails claim callback) hx
    refine .sessionFails _ _ resting admissible (fun ok => by simp [ok] at callback) rfl ?_
    simp [claimsHeld_append, claimsHeld_offTransition_if, claimsHeld]
  · obtain rfl := exec_next_unique (directionFails claim callback direction) hx
    refine .sessionFails _ _ resting admissible (fun ok => by simp [ok] at direction) rfl ?_
    simp [claimsHeld_append, claimsHeld]

theorem sequencerRow_of_start {pin : PinNum} {now : Micros} {s t : State} (hx : exec (.start pin now) s = .next t) :
    SequencerRow s t (.start pin now) := by
  cases running : s.seqState.running with
  | true =>
    obtain rfl := exec_next_unique (exec_start_of_running running) hx
    exact .stay _ rfl rfl
  | false =>
    rcases Nat.lt_or_ge s.cfg.pinMax pin.toNat with above | admissible
    · obtain rfl := exec_next_unique (exec_start_of_inadmissible running above) hx
      exact .stay _ rfl rfl
    · exact sequencerRow_of_session running admissible hx

theorem sequencerRow_of_tick {now : Micros} {s t : State} (hx : exec (.tick now) s = .next t) :
    SequencerRow s t (.tick now) := by
  have ways := advance_cases now s
  rw [elapsed_toNat] at ways
  rcases ways with ⟨hs, passed, _⟩ | ⟨hs, passed, _⟩ | ⟨hs, passed, _⟩ | ⟨_, _, _, still⟩
  · obtain rfl := exec_next_unique (tickReleasesLineHigh now s hs passed) hx
    exact .releaseHigh _ hs passed rfl (by simp [claimsHeld_append, claimsHeld])
  · obtain ⟨handsOver, aborts⟩ := tickHandsLineOver now s hs passed
    cases answer : s.answers.setDirection with
    | ok =>
      obtain rfl := exec_next_unique (handsOver answer) hx
      exact .handOver _ hs passed answer rfl (by simp [claimsHeld_append, claimsHeld])
    | fail =>
      obtain rfl := exec_next_unique (aborts answer) hx
      refine .handOverFails _ hs passed answer rfl ?_
      simp [claimsHeld_append, claimsHeld_offTransition_if, claimsHeld, sub_eq_add_neg]
  · obtain rfl := exec_next_unique (tickEndsCapture now s hs passed) hx
    exact .endCapture _ hs passed rfl (by simp [claimsHeld_append, claimsHeld, sub_eq_add_neg])
  · rw [exec_tick, still] at hx
    obtain rfl := Host.Outcome.next.inj hx
    exact .stay _ rfl rfl

/-- The inversion of `exec` for the sequencer: an operation that is neither START nor TICK stays where it is. -/
theorem sequencerRow_of_exec {i : Instr} {s t : State} (hx : exec i s = .next t) : SequencerRow s t i := by
  by_cases isStart : ∃ pin now, i = .start pin now
  · obtain ⟨pin, now, rfl⟩ := isStart
    exact sequencerRow_of_start hx
  by_cases isTick : ∃ now, i = .tick now
  · obtain ⟨now, rfl⟩ := isTick
    exact sequencerRow_of_tick hx
  obtain ⟨calls, seqState, _⟩ := onlySequencerCallsDriver i s t (fun pin now e => isStart ⟨pin, now, e⟩)
    (fun now e => isTick ⟨now, e⟩) hx
  exact .stay i seqState (congrArg claimsHeld calls)

/-- Settles O41: each row with its guard is one of the disjuncts. -/
theorem sequencerTransitionRelation : Obligations.SequencerTransitionRelation := by
  intro i s t hx
  cases sequencerRow_of_exec hx with
  | stay _ state => exact .inl state
  | sessionBegins pin now resting admissible answers state =>
    exact .inr (.inl ⟨pin, now, rfl, resting, admissible, .inl ⟨state, answers⟩⟩)
  | sessionFails pin now resting admissible answers state =>
    exact .inr (.inl ⟨pin, now, rfl, resting, admissible, .inr ⟨state, answers⟩⟩)
  | releaseHigh now fromLow passed state => exact .inr (.inr ⟨now, rfl, .inl ⟨fromLow, passed, state⟩⟩)
  | handOver now fromSettle passed answer state =>
    exact .inr (.inr ⟨now, rfl, .inr (.inl ⟨fromSettle, passed, .inl ⟨state, answer⟩⟩)⟩)
  | handOverFails now fromSettle passed answer state =>
    exact .inr (.inr ⟨now, rfl, .inr (.inl ⟨fromSettle, passed, .inr ⟨state, answer⟩⟩)⟩)
  | endCapture now fromObserve passed state =>
    exact .inr (.inr ⟨now, rfl, .inr (.inr ⟨fromObserve, passed, state⟩)⟩)

/-! ## Claims and `pin_claimed` -/

/-- Each row adds to the claims held what it adds to running sessions: one where a session begins, none on the way, one
less where it ends. -/
theorem claimsHeld_balances_running {i : Instr} {s t : State} (hx : exec i s = .next t) :
    claimsHeld t.calls - (if t.seqState.running then 1 else 0) =
      claimsHeld s.calls - (if s.seqState.running then 1 else 0) := by
  cases sequencerRow_of_exec hx with
  | stay _ state claims => rw [state, claims]
  | sessionBegins _ _ resting _ _ state claims => rw [resting, state, claims]; simp [SeqState.running]
  | sessionFails _ _ resting _ _ state claims => rw [resting, state, claims]; simp [SeqState.running]
  | releaseHigh _ fromLow _ state claims => simp [fromLow, state, claims, SeqState.running]
  | handOver _ fromSettle _ _ state claims => simp [fromSettle, state, claims, SeqState.running]
  | handOverFails _ fromSettle _ _ state claims => simp [fromSettle, state, claims, SeqState.running]
  | endCapture _ fromObserve _ state claims => simp [fromObserve, state, claims, SeqState.running]

/-- Settles O43: under the invariant, which the operation keeps, the pin is claimed exactly while a session runs. -/
theorem claimsAndReleasesBalance : Obligations.ClaimsAndReleasesBalance := by
  intro i s t hInv hx
  rw [hInv.claimed, (exec_keeps_inv hInv hx).claimed]
  exact claimsHeld_balances_running hx

/-! ## A whole session -/

theorem execAll_cons_of_next {i : Instr} {is : List Instr} {s t : State} (hx : exec i s = .next t) :
    execAll (i :: is) s = execAll is t := by
  rw [execAll, hx]

/-- Settles O44: the equations of START and of the three transitions, each in the state the one before leaves. -/
theorem sessionMakesEightDriverCalls : Obligations.SessionMakesEightDriverCalls := by
  intro pin t0 t1 t2 t3 s resting admissible answers low settle window
  have begins := startBeginsSession pin t0 s ((running_eq_false_iff _).mp resting) admissible answers
  refine ⟨_, (execAll_cons_of_next begins).trans ((execAll_cons_of_next (tickReleasesLineHigh t1 _ rfl low)).trans
    ((execAll_cons_of_next ((tickHandsLineOver t2 _ rfl settle).1 (by rw [answers]))).trans
      ((execAll_cons_of_next (tickEndsCapture t3 _ rfl window)).trans rfl))), ?_, rfl, rfl, rfl, rfl, rfl⟩
  simp only [List.append_assoc]
  rfl

end Sys2Proof.Proofs
end

section
/-! The ways DECODE ends before it has recovered a bit, and the two responses of RDRES (42_protocol_decoder.md R190 to
R194, R205). -/

namespace Sys2Proof.Proofs

open Sys2Proof.Machine

/-! ## Every admitted operation completes -/

/-- Settles O11: the two branches that are refused are those that the premises shut out. -/
theorem admittedOperationsComplete : Obligations.AdmittedOperationsComplete := by
  intro i s gate within
  cases i with
  | arm | enable | edge | disarm | rdcnt | tick => exact ⟨_, rfl⟩
  | rdsmp idx =>
    rw [exec, execRdsmp, if_neg (Nat.not_le.mpr (within idx rfl))]
    split_ifs <;> exact ⟨_, rfl⟩
  | start pin now =>
    rw [exec, execStart]
    split_ifs <;> exact ⟨_, rfl⟩
  | decode => exact ⟨_, if_neg (Bool.eq_false_iff.mp (gate rfl))⟩
  | rdres =>
    rw [exec, execRdres]
    split <;> exact ⟨_, rfl⟩

/-! ## DECODE up to the acknowledgement -/

section
variable {s t : State}

theorem exec_decode_of_closed (closed : s.cbEn = false) :
    exec .decode s = .next (respond .none (decodeBuffer s)) :=
  if_neg (Bool.eq_false_iff.mp closed)

theorem eq_decodeBuffer_of_exec_decode (hx : exec .decode s = .next t) :
    s.cbEn = false ∧ t = respond .none (decodeBuffer s) := by
  simp only [exec, execDecode] at hx
  split_ifs at hx with gate
  exact ⟨Bool.eq_false_iff.mpr gate, (Host.Outcome.next.inj hx).symm⟩

/-- The index at which the scan of step 2 ends: that of the first long sample, or `count` (42_protocol_decoder.md
R193). -/
def scanEnd (s : State) : Nat := scanFrom s.cfg.tAck s.sampleAt s.count.samples 0

theorem decodeBuffer_of_few (few : s.count.toInt < s.cfg.minEdges) :
    decodeBuffer s = raiseFail true .insufficientData s := if_pos few

theorem decodeBuffer_of_noLong (enough : (s.cfg.minEdges : Int) ≤ s.count.toInt)
    (noLong : scanEnd s = s.count.samples) :
    decodeBuffer s = raiseFail true .noAcknowledgement { s with decIdx := BitVec.ofNat 8 (scanEnd s) } :=
  (if_neg (not_lt.mpr enough)).trans (if_pos noLong)

theorem decodeBuffer_of_invalid (enough : (s.cfg.minEdges : Int) ≤ s.count.toInt)
    (found : scanEnd s ≠ s.count.samples)
    (invalid : ackValid s.cfg.tHalf s.sampleAt s.count.samples (scanEnd s) = false) :
    decodeBuffer s = raiseFail true .malformedAcknowledgement { s with decIdx := BitVec.ofNat 8 (scanEnd s) } :=
  (if_neg (not_lt.mpr enough)).trans ((if_neg found).trans (if_pos (congrArg not invalid)))

/-- Step 4 writes `dec_idx` again. -/
theorem decodeBuffer_of_valid (enough : (s.cfg.minEdges : Int) ≤ s.count.toInt)
    (found : scanEnd s ≠ s.count.samples)
    (valid : ackValid s.cfg.tHalf s.sampleAt s.count.samples (scanEnd s) = true) :
    decodeBuffer s = decodePayload s.count.samples (scanEnd s) s :=
  (if_neg (not_lt.mpr enough)).trans
    ((if_neg found).trans (if_neg (Bool.eq_false_iff.mp (congrArg not valid))))

/-- The scan passes no long sample and stops at no short one. -/
theorem scanEnd_eq_of_first {i : Nat} (below : i < s.count.samples)
    (first : ∀ k < i, (s.sampleAt k).duration.toNat < s.cfg.tAck)
    (long : s.cfg.tAck ≤ (s.sampleAt i).duration.toNat) : scanEnd s = i := by
  obtain ⟨_, _, skipped, stopped⟩ := scanFrom_spec s.cfg.tAck s.sampleAt s.count.samples 0
  rcases lt_trichotomy (scanEnd s) i with early | same | late
  · exact absurd (stopped (by rw [Nat.zero_add]; exact early.trans below)) (Nat.not_le.mpr (first _ early))
  · exact same
  · exact absurd long (Nat.not_le.mpr (skipped i i.zero_le late))

end

/-- Settles O45: the gate is the first test of DECODE. -/
theorem decodeRefusedWhileEnabled : Obligations.DecodeRefusedWhileEnabled := fun _ gate => if_pos gate

/-- Settles O46: step 1, in which the failure entry is the only write. -/
theorem decodeNeedsMinEdges : Obligations.DecodeNeedsMinEdges := by
  intro s closed few
  rw [exec_decode_of_closed closed, decodeBuffer_of_few few]
  rfl

/-- Settles O48: the scan ends at `i`, where one of the four conditions of R194 fails. -/
theorem decodeMalformedAcknowledgement : Obligations.DecodeMalformedAcknowledgement := by
  intro s i n closed stored enough below first long fails
  have samples : s.count.samples = n := by rw [stored]; rfl
  have atFirst : scanEnd s = i := scanEnd_eq_of_first (samples ▸ below) first long
  have invalid : ackValid s.cfg.tHalf s.sampleAt n i = false := by
    refine Bool.eq_false_iff.mpr fun valid => ?_
    obtain ⟨room, low, half1, half2⟩ := (ackValid_iff _ _ _ _).mp valid
    rcases fails with missing | high | short | short
    · omega
    · rw [low] at high; cases high
    · omega
    · omega
  rw [exec_decode_of_closed closed, decodeBuffer_of_invalid (by rw [stored]; exact Int.ofNat_le.mpr enough)
    (by rw [atFirst, samples]; exact below.ne) (by rw [atFirst, samples]; exact invalid), atFirst]
  rfl

/-- Settles O54: every way out of DECODE finishes the decode, and a finished decode writes these registers only. -/
theorem decodeWritesOnlyDecoder : Obligations.DecodeWritesOnlyDecoder := by
  intro s t hx
  obtain ⟨_, rfl⟩ := eq_decodeBuffer_of_exec_decode hx
  obtain ⟨_, _, _, _, _, e, _⟩ := decodeFinished_decodeBuffer s
  rw [e]
  rfl

/-! ## RDRES -/

theorem isDone_bit (d : DecState) : BitVec.ofBool d.isDone = if d = .done then 1 else 0 := by
  cases d <;> rfl

/-- The status fields of the RDRES word lie above its low 33 bits (30_encoding.md R104). -/
theorem resultWord_fields (seq : SeqState) (done : Bool) (err : Err) (valid : Bool) (low : BitVec 33) :
    let w := resultWord seq done err valid low
    w.extractLsb' 38 3 = seq.code ∧ w.extractLsb' 37 1 = BitVec.ofBool done ∧ w.extractLsb' 34 3 = err.code ∧
      w.extractLsb' 33 1 = BitVec.ofBool valid ∧ w.extractLsb' 0 33 = low := by
  intro w
  obtain ⟨upper, err, valid, low⟩ :=
    (eq_append₄_iff (seq.code ++ BitVec.ofBool done) err.code (BitVec.ofBool valid) low w).mp rfl
  obtain ⟨seq, done⟩ := (extractLsb'_eq_append_iff _ _ _ _).mp upper
  exact ⟨seq, done, err, valid, low⟩

theorem exec_rdres_of_some {s : State} {r : Reading} (valid : s.reading = some r) :
    exec .rdres s = .next (respond (.result (resultWord s.seqState s.decState.isDone s.err true r.bits)) s) := by
  rw [exec, execRdres, valid]

theorem exec_rdres_of_none {s : State} (invalid : s.reading = none) :
    exec .rdres s =
      .next (respond
        (.result (resultWord s.seqState s.decState.isDone s.err false (Config.noReadingBits s.draws))) (drawn s)) := by
  rw [exec, execRdres, invalid]

/-- Settles O59: with a valid reading the low 33 bits are its three fields. -/
theorem rdresReportsReading : Obligations.RdresReportsReading := by
  intro s r valid
  obtain ⟨seq, done, err, isValid, low⟩ := resultWord_fields s.seqState s.decState.isDone s.err true r.bits
  obtain ⟨upper, temp⟩ := (extractLsb'_eq_append_iff 0 (r.kind.bit ++ r.hum) r.temp _).mp low
  obtain ⟨kind, hum⟩ := (extractLsb'_eq_append_iff _ _ _ _).mp upper
  have kindCode : r.kind.bit = match r.kind with | .a => 0 | .b => 1 := by cases r.kind <;> rfl
  exact ⟨_, exec_rdres_of_some valid, seq, done.trans (isDone_bit _), err, isValid, kind.trans kindCode, hum, temp⟩

/-- Settles O60: without one the low 33 bits are drawn. -/
theorem rdresReportsStatus : Obligations.RdresReportsStatus := by
  intro s invalid
  obtain ⟨seq, done, err, isValid, _⟩ :=
    resultWord_fields s.seqState s.decState.isDone s.err false (Config.noReadingBits s.draws)
  exact ⟨_, exec_rdres_of_none invalid, seq, done.trans (isDone_bit _), err, isValid⟩

end Sys2Proof.Proofs
end

section
/-! Step 4 of DECODE (42_protocol_decoder.md R195 to R197): the bits of the high samples, the number that bits make, and
the invariant of the run that recovers a payload from them. -/

namespace Sys2Proof.Proofs

open Sys2Proof.Machine

/-! ## The bits that have arrived -/

section
variable {s : State} {start n : Nat}

theorem arrivedBits_self : arrivedBits s start start = [] := by
  have empty : highIndices s start start = [] := by
    refine List.filter_eq_nil_iff.mpr fun j hj => ?_
    simp [List.mem_range.mp hj]
  rw [arrivedBits, empty, List.map_nil]

theorem arrivedBits_succ_of_low (low : (s.sampleAt n).level = .low) :
    arrivedBits s start (n + 1) = arrivedBits s start n := by
  simp [arrivedBits, highIndices, List.range_succ, low]

theorem arrivedBits_succ_of_high (begun : start ≤ n) (high : (s.sampleAt n).level = .high) :
    arrivedBits s start (n + 1) = arrivedBits s start n ++ [bitOf s.cfg.tBit (s.sampleAt n)] := by
  simp [arrivedBits, highIndices, List.range_succ, begun, high, bitOf]

/-- Later samples add bits behind those that have arrived. -/
theorem arrivedBits_prefix {a b : Nat} (le : a ≤ b) : arrivedBits s start a <+: arrivedBits s start b := by
  obtain ⟨d, rfl⟩ := Nat.exists_eq_add_of_le le
  rw [arrivedBits, arrivedBits, highIndices, highIndices, List.range_add, List.filter_append, List.map_append]
  exact List.prefix_append _ _

/-- At most one index follows the sample that supplies the 40th bit. -/
theorem afterFortieth_le {j k : Nat} (hj : AfterFortieth s start n j) (hk : AfterFortieth s start n k) : k ≤ j := by
  by_contra above
  obtain ⟨m, rfl, begun, high⟩ := hk.supplied
  have more := (arrivedBits_prefix (s := s) (start := start) (show j ≤ m by omega)).length_le
  have last := hk.forty
  rw [arrivedBits_succ_of_high begun high, List.length_append, List.length_singleton] at last
  have forty := hj.forty
  omega

theorem afterFortieth_unique {j k : Nat} (hj : AfterFortieth s start n j) (hk : AfterFortieth s start n k) : j = k :=
  le_antisymm (afterFortieth_le hk hj) (afterFortieth_le hj hk)

end

/-! ## Bits as numbers -/

theorem bitsNumber_lt (l : List Bool) : bitsNumber l < 2 ^ l.length := by
  induction l with
  | nil => decide
  | cons b l ih =>
    rw [bitsNumber, List.length_cons, Nat.pow_succ]
    split <;> omega

/-- The first bit is the most significant one. -/
theorem testBit_bitsNumber (l : List Bool) {k : Nat} (hk : k < l.length) :
    (bitsNumber l).testBit (l.length - 1 - k) = l[k] := by
  induction l generalizing k with
  | nil => exact absurd hk k.not_lt_zero
  | cons b l ih =>
    have small := bitsNumber_lt l
    cases k with
    | zero =>
      cases b
      · simpa [bitsNumber] using Nat.testBit_lt_two_pow small
      · simpa [bitsNumber, Nat.testBit_two_pow_add_eq] using Nat.testBit_lt_two_pow small
    | succ k =>
      have inner : k < l.length := Nat.lt_of_succ_lt_succ hk
      have place : (b :: l).length - 1 - (k + 1) = l.length - 1 - k := by simp only [List.length_cons]; omega
      rw [place, List.getElem_cons_succ, ← ih inner]
      cases b
      · simp [bitsNumber]
      · exact Nat.testBit_two_pow_add_gt (by omega) _

/-- The bits that go into byte `k` of a payload (42_protocol_decoder.md R196). -/
def byteBits (l : List Bool) (k : Nat) : List Bool := (l.drop (8 * k)).take 8

/-- The next bit goes into the byte that is not yet full. -/
theorem byteBits_concat_same (l : List Bool) (b : Bool) :
    byteBits (l ++ [b]) (l.length / 8) = byteBits l (l.length / 8) ++ [b] := by
  have room : (l.drop (8 * (l.length / 8))).length < 8 := by rw [List.length_drop]; omega
  rw [byteBits, byteBits, List.drop_append_of_le_length (by omega), List.take_of_length_le room.le,
    List.take_of_length_le (by rw [List.length_append, List.length_singleton]; exact room)]

theorem byteBits_concat_other (l : List Bool) (b : Bool) {k : Nat} (other : k ≠ l.length / 8) :
    byteBits (l ++ [b]) k = byteBits l k := by
  rcases Nat.lt_or_gt_of_ne other with full | empty
  · rw [byteBits, byteBits, List.drop_append_of_le_length (by omega),
      List.take_append_of_le_length (by rw [List.length_drop]; omega)]
  · have beyond : (l ++ [b]).length ≤ 8 * k := by rw [List.length_append, List.length_singleton]; omega
    rw [byteBits, byteBits, List.drop_eq_nil_of_le beyond, List.drop_eq_nil_of_le (by omega)]

/-- A byte with its top bit free shifts without loss. -/
theorem shiftLeft_or_bit_toNat {x : BitVec 8} (free : x.toNat < 128) (b : Bool) :
    ((x <<< 1) ||| (if b then 1 else 0)).toNat = 2 * x.toNat + if b then 1 else 0 := by
  have shifted : (x <<< 1).toNat = x.toNat <<< 1 := by
    rw [BitVec.toNat_shiftLeft, Nat.mod_eq_of_lt (by rw [Nat.shiftLeft_eq]; omega)]
  cases b with
  | false => simp [shifted, Nat.shiftLeft_eq, Nat.mul_comm]
  | true =>
    have bit : (1 : Nat) < 2 ^ 1 := by decide
    simpa [shifted, Nat.shiftLeft_eq, Nat.mul_comm] using (Nat.shiftLeft_add_eq_or_of_lt bit x.toNat).symm

/-! ## The bits of a payload -/

theorem payloadBit_eq (p : Payload) (n : Nat) : payloadBit p n = (payloadByte p (n / 8)).getLsbD (7 - n % 8) := by
  unfold payloadBit payloadByte
  split <;> simp

/-- Byte `k` of a payload that makes the number of eight bits has these bits, in order of arrival. -/
theorem payloadBit_of_byte {p : Payload} {l : List Bool} {n : Nat}
    (byte : (payloadByte p (n / 8)).toNat = bitsNumber (byteBits l (n / 8))) (full : n < 8 * (l.length / 8)) :
    l[n]? = some (payloadBit p n) := by
  have eight : (byteBits l (n / 8)).length = 8 := by
    rw [byteBits, List.length_take, List.length_drop]; omega
  have inside : n % 8 < (byteBits l (n / 8)).length := by omega
  have bit := testBit_bitsNumber (byteBits l (n / 8)) inside
  rw [eight, ← byte] at bit
  have here : (byteBits l (n / 8))[n % 8]? = l[n]? := by
    rw [byteBits, List.getElem?_take_of_lt (by omega), List.getElem?_drop, Nat.div_add_mod]
  rw [← here, List.getElem?_eq_getElem inside, ← bit, payloadBit_eq]
  rfl

theorem payload_ext_byte {p q : Payload} (same : ∀ k < 5, payloadByte p k = payloadByte q k) : p = q := by
  obtain ⟨b0, b1, b2, b3, b4⟩ := p
  have h0 := same 0 (by decide)
  have h1 := same 1 (by decide)
  have h2 := same 2 (by decide)
  have h3 := same 3 (by decide)
  have h4 := same 4 (by decide)
  simp only [payloadByte] at h0 h1 h2 h3 h4
  subst h0 h1 h2 h3 h4
  rfl

/-- Forty bits determine a payload. -/
theorem payload_ext_bit {p q : Payload} (same : ∀ k < 40, payloadBit p k = payloadBit q k) : p = q := by
  refine payload_ext_byte fun k hk => BitVec.eq_of_getLsbD_eq fun i hi => ?_
  have bit := same (8 * k + (7 - i)) (by omega)
  rw [payloadBit_eq, payloadBit_eq] at bit
  have byte : (8 * k + (7 - i)) / 8 = k := by omega
  have place : 7 - (8 * k + (7 - i)) % 8 = i := by omega
  rwa [byte, place] at bit

/-! ## The run of step 4 -/

/-- What step 4 keeps, having begun at index `start`: it has counted the bits of the samples it passed, each byte of the
payload is the number that its bits make, and a 40th bit was supplied by the last sample it passed. -/
structure Recovered (s : State) (start : Nat) (r : BitRun) : Prop where
  begun : start ≤ r.idx
  nbits : r.nbits = (arrivedBits s start r.idx).length
  within : r.nbits ≤ 40
  bytes : ∀ k < 5, (payloadByte r.data k).toNat = bitsNumber (byteBits (arrivedBits s start r.idx) k)
  supplied : r.nbits = 40 → ∃ k, r.idx = k + 1 ∧ start ≤ k ∧ (s.sampleAt k).level = .high

theorem recovered_zero (s : State) (start : Nat) : Recovered s start ⟨Payload.zero, 0, start⟩ where
  begun := le_rfl
  nbits := by rw [arrivedBits_self]; rfl
  within := Nat.zero_le _
  bytes k hk := by
    rw [arrivedBits_self, byteBits, List.drop_nil, List.take_nil, bitsNumber]
    interval_cases k <;> rfl
  supplied := nofun

/-- A byte that is not yet full takes one more bit. -/
theorem byte_shiftIn {p : Payload} {l : List Bool} (b : Bool) (short : l.length < 40)
    (bytes : ∀ k < 5, (payloadByte p k).toNat = bitsNumber (byteBits l k)) {k : Nat} (hk : k < 5) :
    (payloadByte (p.shiftIn (l.length / 8) b) k).toNat = bitsNumber (byteBits (l ++ [b]) k) := by
  rw [shiftIn_byte p b (by omega)]
  by_cases here : k = l.length / 8
  · subst here
    have room : (byteBits l (l.length / 8)).length ≤ 7 := by
      rw [byteBits, List.length_take, List.length_drop]; omega
    have free : (payloadByte p (l.length / 8)).toNat < 128 :=
      (bytes _ hk).trans_lt ((bitsNumber_lt _).trans_le (Nat.pow_le_pow_right (by decide) room))
    rw [if_pos rfl, shiftLeft_or_bit_toNat free, bytes _ hk, byteBits_concat_same, bitsNumber_concat]
  · rw [if_neg here, byteBits_concat_other l b here, bytes k hk]

theorem recovered_takeSample {s : State} {start : Nat} {r : BitRun} (h : Recovered s start r) (short : r.nbits ≠ 40) :
    Recovered s start (takeSample s.cfg.tBit (s.sampleAt r.idx) r) := by
  obtain ⟨begun, nbits, within, bytes, _⟩ := h
  rcases takeSample_cases s.cfg.tBit (s.sampleAt r.idx) r with ⟨low, e⟩ | ⟨high, e⟩ <;> rw [e]
  · have same := arrivedBits_succ_of_low (start := start) low
    exact ⟨begun.trans r.idx.le_succ, same ▸ nbits, within, fun k hk => same ▸ bytes k hk,
      fun full => absurd full short⟩
  · have more := arrivedBits_succ_of_high begun high
    refine ⟨begun.trans r.idx.le_succ, ?_, by change r.nbits + 1 ≤ 40; omega, fun k hk => ?_,
      fun _ => ⟨r.idx, rfl, begun, high⟩⟩
    · rw [more, List.length_append, ← nbits, List.length_singleton]
    · rw [more, nbits]
      exact byte_shiftIn _ (by omega) bytes hk

/-- What each sample keeps until the last bit is in, step 4 keeps. -/
theorem extractFrom_induction {P : BitRun → Prop} {bits tBit : Nat} {rd : Nat → Sample}
    (keeps : ∀ r, P r → r.nbits ≠ bits → P (takeSample tBit (rd r.idx) r)) (left : Nat) {r : BitRun} (h : P r) :
    P (extractFrom bits tBit rd left r) := by
  induction left generalizing r with
  | zero => exact h
  | succ left ih =>
    rw [extractFrom]
    split_ifs with full
    · exact h
    · exact ih (keeps r h full)

/-- What step 4 recovers behind an acknowledgement at `i` of `n` samples. -/
def payloadRun (s : State) (n i : Nat) : BitRun :=
  extractFrom s.cfg.payloadBits s.cfg.tBit s.sampleAt (n - (i + 4)) ⟨Payload.zero, 0, i + 4⟩

section
variable (s : State) {i n : Nat}

theorem payloadRun_idx_le (room : i + 3 < n) : (payloadRun s n i).idx ≤ n := by
  obtain ⟨_, _, le, _⟩ := extractFrom_bounds s.cfg.payloadBits s.cfg.tBit s.sampleAt (n - (i + 4))
    ⟨Payload.zero, 0, i + 4⟩ (Nat.zero_le _)
  exact le.trans (by dsimp only; omega)

theorem arrivedBits_payloadRun_prefix (room : i + 3 < n) :
    arrivedBits s (i + 4) (payloadRun s n i).idx <+: arrivedBits s (i + 4) n :=
  arrivedBits_prefix (payloadRun_idx_le s room)

variable {s}

theorem recovered_payloadRun (forty : s.cfg.payloadBits = 40) : Recovered s (i + 4) (payloadRun s n i) := by
  rw [payloadRun, forty]
  exact extractFrom_induction (fun _ h short => recovered_takeSample h short) _ (recovered_zero s (i + 4))

/-- Step 4 stops before the end only at the last bit. -/
theorem payloadRun_idx_of_short (room : i + 3 < n) (short : (payloadRun s n i).nbits < s.cfg.payloadBits) :
    (payloadRun s n i).idx = n := by
  obtain ⟨_, _, _, atEnd⟩ := extractFrom_bounds s.cfg.payloadBits s.cfg.tBit s.sampleAt (n - (i + 4))
    ⟨Payload.zero, 0, i + 4⟩ (Nat.zero_le _)
  exact (atEnd short).trans (by dsimp only; omega)

/-- Where forty bits arrive, step 4 recovers the payload they form and stops behind the sample of the fortieth. -/
theorem payloadRun_of_isPayload {p : Payload} (forty : s.cfg.payloadBits = 40) (room : i + 3 < n)
    (payload : IsPayload s (i + 4) n p) :
    (payloadRun s n i).nbits = 40 ∧ (payloadRun s n i).data = p ∧
      AfterFortieth s (i + 4) n (payloadRun s n i).idx := by
  obtain ⟨_, nbits, within, bytes, supplied⟩ := recovered_payloadRun (n := n) (i := i) forty
  have all : (payloadRun s n i).nbits = 40 := by
    by_contra short
    have atEnd := payloadRun_idx_of_short room (by omega : (payloadRun s n i).nbits < s.cfg.payloadBits)
    rw [atEnd] at nbits
    have full := payload.full
    omega
  refine ⟨all, payload_ext_bit fun k hk => ?_, payloadRun_idx_le s room, nbits.symm.trans all, supplied all⟩
  have full : k < 8 * ((arrivedBits s (i + 4) (payloadRun s n i).idx).length / 8) := by omega
  have recovered := payloadBit_of_byte (bytes (k / 8) (by omega)) full
  have arrived := payload.bits k hk
  rw [List.prefix_iff_getElem?.mp (arrivedBits_payloadRun_prefix s room) k (by omega)] at arrived
  rw [List.getElem?_eq_getElem (by omega)] at recovered
  exact Option.some.inj (recovered.symm.trans arrived)

/-- Where fewer than forty bits arrive, step 4 passes all samples. -/
theorem payloadRun_of_few (forty : s.cfg.payloadBits = 40) (room : i + 3 < n)
    (few : (arrivedBits s (i + 4) n).length < 40) :
    (payloadRun s n i).nbits = (arrivedBits s (i + 4) n).length ∧ (payloadRun s n i).idx = n := by
  have nbits := (recovered_payloadRun (n := n) (i := i) forty).nbits
  have upTo := (arrivedBits_payloadRun_prefix s room).length_le
  have atEnd : (payloadRun s n i).idx = n := payloadRun_idx_of_short room (by omega)
  rw [atEnd] at nbits
  exact ⟨nbits, atEnd⟩

end

end Sys2Proof.Proofs
end

section
/-! What DECODE leaves behind an acknowledgement (42_protocol_decoder.md R195 to R203): too few bits, or a payload and
the verdict on it. -/

namespace Sys2Proof.Proofs

open Sys2Proof.Machine

/-! ## From the acknowledgement to the payload -/

section
variable {s : State} {i n : Nat}

theorem decodeBuffer_of_acknowledged (ack : Acknowledged s i n) :
    decodeBuffer s = decodePayload n i s := by
  obtain ⟨stored, enough, room, first, long, low, half1, half2⟩ := ack
  have samples : s.count.samples = n := by rw [stored]; rfl
  have found : scanEnd s = i := scanEnd_eq_of_first (by omega) first long
  have valid := (ackValid_iff s.cfg.tHalf s.sampleAt n i).mpr ⟨room, low, half1, half2⟩
  rw [decodeBuffer_of_valid (by rw [stored]; exact Int.ofNat_le.mpr enough) (by omega)
    (by rw [found, samples]; exact valid), found, samples]

theorem decodePayload_of_short (short : (payloadRun s n i).nbits < s.cfg.payloadBits) :
    decodePayload n i s = raiseFail true .insufficientData (loadRun (payloadRun s n i) s) := if_pos short

theorem decodePayload_of_full (full : (payloadRun s n i).nbits = s.cfg.payloadBits) :
    decodePayload n i s = judge (loadRun (payloadRun s n i) s) := if_neg full.not_lt

/-- Where forty bits arrive, DECODE judges the payload they form. -/
theorem exec_decode_of_isPayload {p : Payload} (wf : s.cfg.WellFormed) (closed : s.cbEn = false)
    (ack : Acknowledged s i n) (payload : IsPayload s (i + 4) n p) :
    ∃ j, AfterFortieth s (i + 4) n j ∧
      exec .decode s =
        .next (respond .none (judge { s with data := p, decNbits := 40, decIdx := BitVec.ofNat 8 j })) := by
  obtain ⟨_, ⟨forty, _⟩, _⟩ := wf
  obtain ⟨all, data, after⟩ := payloadRun_of_isPayload forty ack.room payload
  have loaded : loadRun (payloadRun s n i) s =
      { s with data := p, decNbits := 40, decIdx := BitVec.ofNat 8 (payloadRun s n i).idx } := by
    rw [loadRun, all, data]
    rfl
  refine ⟨_, after, ?_⟩
  rw [exec_decode_of_closed closed, decodeBuffer_of_acknowledged ack, decodePayload_of_full (all.trans forty.symm),
    loaded]

end

/-- Settles O49: step 4 passes all samples, and its invariant says what the bytes are. -/
theorem decodeRunsOutOfBits : Obligations.DecodeRunsOutOfBits := by
  intro s i n ⟨_, ⟨forty, _⟩, _⟩ closed ack few
  have bytes := (recovered_payloadRun (s := s) (n := n) (i := i) forty).bytes
  obtain ⟨nbits, atEnd⟩ := payloadRun_of_few forty ack.room few
  have short : (payloadRun s n i).nbits < s.cfg.payloadBits := (nbits.trans_lt few).trans_eq forty.symm
  have loaded : loadRun (payloadRun s n i) s =
      { s with
        data := (payloadRun s n i).data, decNbits := BitVec.ofNat 6 (arrivedBits s (i + 4) n).length,
        decIdx := BitVec.ofNat 8 n } := by
    rw [loadRun, nbits, atEnd]
  rw [atEnd] at bytes
  refine ⟨(payloadRun s n i).data, ?_, bytes, fun k full => payloadBit_of_byte (bytes _ (by omega)) full⟩
  rw [exec_decode_of_closed closed, decodeBuffer_of_acknowledged ack, decodePayload_of_short short, loaded]
  rfl

/-! ## The verdict -/

section
variable {s : State}

theorem judge_of_mismatch
    (wrong : (s.data.b0.toNat + s.data.b1.toNat + s.data.b2.toNat + s.data.b3.toNat) % 256 ≠ s.data.b4.toNat) :
    judge s = raiseFail true .checksumMismatch s := by
  simp [judge, checksumMatches, wrong]

theorem judge_of_zero (zero : s.data = ⟨0, 0, 0, 0, 0⟩) : judge s = raiseFail true .allZeroPayload s := by
  rw [judge, zero]
  rfl

theorem judge_of_reading
    (sum : (s.data.b0.toNat + s.data.b1.toNat + s.data.b2.toNat + s.data.b3.toNat) % 256 = s.data.b4.toNat)
    (nonzero : ¬(s.data.b0 = 0 ∧ s.data.b1 = 0 ∧ s.data.b2 = 0 ∧ s.data.b3 = 0)) :
    judge s = deliver (readingOf s.data) s := by
  have kept : allZero s.data = false := decide_eq_false nonzero
  simp [judge, checksumMatches, sum, kept]

end

/-- Settles O50: the checksum is tested first. -/
theorem decodeChecksumMismatch : Obligations.DecodeChecksumMismatch := by
  intro s i n p wf closed ack payload wrong
  obtain ⟨j, after, e⟩ := exec_decode_of_isPayload wf closed ack payload
  rw [judge_of_mismatch wrong] at e
  exact ⟨j, after, e⟩

/-- Settles O51: five zero bytes pass the checksum and fail the second test. -/
theorem decodeAllZeroPayload : Obligations.DecodeAllZeroPayload := by
  intro s i n wf closed ack payload
  obtain ⟨j, after, e⟩ := exec_decode_of_isPayload wf closed ack payload
  rw [judge_of_zero rfl] at e
  exact ⟨j, after, e⟩

/-! ## The reading of a payload -/

theorem readingOf_kindA {p : Payload} (zero : p.b1 = 0 ∧ p.b3 = 0) :
    (readingOf p).kind = .a ∧ (readingOf p).hum.toNat = 10 * p.b0.toNat ∧
      (readingOf p).temp.toInt = 10 * p.b2.toNat := by
  have kind : kindOf p = .a := if_pos zero
  have b0 := p.b0.isLt
  have b2 := p.b2.isLt
  simp only [readingOf, kind, humidityOf, temperatureOf]
  exact ⟨trivial, Nat.mod_eq_of_lt (by omega), BitVec.toInt_ofInt_eq_self (by decide) (by omega) (by omega)⟩

theorem byte_append_toNat (x y : BitVec 8) : (x ++ y).toNat = 256 * x.toNat + y.toNat := by
  rw [BitVec.toNat_append, ← Nat.shiftLeft_add_eq_or_of_lt y.isLt, Nat.shiftLeft_eq, Nat.mul_comm]

theorem and_7F_toNat (x : BitVec 8) : (x &&& 0x7F).toNat = x.toNat % 128 :=
  (BitVec.toNat_and x 0x7F).trans (Nat.and_two_pow_sub_one_eq_mod x.toNat 7)

/-- The sign bit of the temperature, as a comparison. -/
theorem and_80_ne_zero_iff (x : BitVec 8) : x &&& 0x80 ≠ 0 ↔ 128 ≤ x.toNat := by
  have bit : x &&& 0x80 = if x.msb then 0x80 else 0 := BitVec.and_twoPow x 7
  rw [bit, BitVec.msb_eq_decide]
  simp

theorem temperatureOf_b (p : Payload) :
    temperatureOf .b p =
      (if 128 ≤ p.b2.toNat then -1 else 1) * (256 * (p.b2.toNat % 128) + p.b3.toNat : Int) := by
  simp only [temperatureOf, byte_append_toNat, and_7F_toNat, and_80_ne_zero_iff]
  split_ifs <;> push_cast <;> ring

theorem readingOf_kindB {p : Payload} (nonzero : ¬(p.b1 = 0 ∧ p.b3 = 0)) :
    (readingOf p).kind = .b ∧ (readingOf p).hum.toNat = 256 * p.b0.toNat + p.b1.toNat ∧
      (readingOf p).temp.toInt =
        (if 128 ≤ p.b2.toNat then -1 else 1) * (256 * (p.b2.toNat % 128) + p.b3.toNat : Int) := by
  have kind : kindOf p = .b := if_neg nonzero
  have b3 := p.b3.isLt
  have range : -32768 ≤ temperatureOf .b p ∧ temperatureOf .b p < 32768 := by
    rw [temperatureOf_b]
    split_ifs <;> omega
  simp only [readingOf, kind, ← temperatureOf_b]
  refine ⟨trivial, ?_, BitVec.toInt_ofInt_eq_self (by decide) range.1 range.2⟩
  rw [humidityOf, BitVec.ofNat_toNat, BitVec.setWidth_eq, byte_append_toNat]

/-- Settles O52: the reading delivered is that of the payload, by its kind. -/
theorem decodeDeliversReading : Obligations.DecodeDeliversReading := by
  intro s i n p wf closed ack payload sum nonzero
  obtain ⟨j, after, e⟩ := exec_decode_of_isPayload wf closed ack payload
  rw [judge_of_reading sum nonzero] at e
  exact ⟨j, readingOf p, after, e, readingOf_kindA, readingOf_kindB⟩

end Sys2Proof.Proofs
end

section
/-! What a DECODE writes depends on the gate, `count`, the parameters and the samples below `count` alone, so it is the
same on two states that agree on these, and on a state and what DECODE leaves of it (42_protocol_decoder.md R190, R192,
R204). -/

namespace Sys2Proof.Proofs

open Sys2Proof.Machine

/-! ## The writes of a DECODE -/

/-- What a DECODE writes besides `dec_state`: `dec_idx` if step 2 has run, `dec_nbits` and `data[]` if step 4 has, and
the outcome. -/
structure DecoderWrites where
  idx : Option (BitVec 8)
  run : Option (BitVec 6 × Payload)
  err : Err
  reading : Option Reading

def DecoderWrites.apply (w : DecoderWrites) (s : State) : State :=
  { s with
    decIdx := w.idx.getD s.decIdx
    decNbits := (w.run.map Prod.fst).getD s.decNbits
    data := (w.run.map Prod.snd).getD s.data
    err := w.err
    reading := w.reading
    decState := .done }

/-- Writing twice, with a response in between, is writing once. -/
theorem DecoderWrites.apply_respond_apply (w : DecoderWrites) (r : Response) (s : State) :
    w.apply (respond r (w.apply s)) = respond r (w.apply s) := by
  obtain ⟨idx, run, err, reading⟩ := w
  cases idx <;> cases run <;> rfl

/-- The two states decode to the same writes. -/
def SameWrites (s t : State) : Prop := ∃ w : DecoderWrites, decodeBuffer s = w.apply s ∧ decodeBuffer t = w.apply t

/-- The writes of a DECODE that has recovered `r`. -/
def DecoderWrites.ofRun (r : BitRun) (err : Err) (reading : Option Reading) : DecoderWrites :=
  ⟨some (BitVec.ofNat 8 r.idx), some (BitVec.ofNat 6 r.nbits, r.data), err, reading⟩

/-- The verdict depends on the payload alone. -/
theorem exists_writes_judge (r : BitRun) : ∃ w : DecoderWrites, ∀ s, judge (loadRun r s) = w.apply s := by
  cases sum : checksumMatches r.data with
  | false => exact ⟨.ofRun r .checksumMismatch none, fun s => by rw [judge, loadRun_data, sum]; rfl⟩
  | true =>
    cases zero : allZero r.data with
    | true => exact ⟨.ofRun r .allZeroPayload none, fun s => by rw [judge, loadRun_data, sum, zero]; rfl⟩
    | false => exact ⟨.ofRun r .none (some (readingOf r.data)), fun s => by rw [judge, loadRun_data, sum, zero]; rfl⟩

/-! ## States with the same buffer -/

section
variable {s t : State}

theorem ackValid_congr (tHalf : Nat) {rd rd' : Nat → Sample} {n i : Nat} (same : ∀ k < n, rd k = rd' k) :
    ackValid tHalf rd n i = ackValid tHalf rd' n i := by
  rw [Bool.eq_iff_iff, ackValid_iff, ackValid_iff]
  refine and_congr_right fun room => ?_
  rw [same i (by omega), same (i + 2) (by omega), same (i + 3) room]

theorem scanEnd_congr (same : SameBuffer s t) : scanEnd s = scanEnd t := by
  obtain ⟨_, count, cfg, samples⟩ := same
  rw [scanEnd, scanEnd, ← count, ← cfg]
  exact scanFrom_congr _ _ _ fun k _ below => samples k (by omega)

theorem payloadRun_congr (same : SameBuffer s t) {i : Nat} (room : i + 3 < s.count.samples) :
    payloadRun s s.count.samples i = payloadRun t t.count.samples i := by
  obtain ⟨_, count, cfg, samples⟩ := same
  rw [payloadRun, payloadRun, ← count, ← cfg]
  exact extractFrom_congr _ _ _ _ fun k _ below => samples k (by dsimp only at below; omega)

/-- The payload is recovered from the same samples, and judged by itself. -/
theorem sameWrites_decodePayload (same : SameBuffer s t) {i : Nat} (room : i + 3 < s.count.samples) :
    ∃ w : DecoderWrites,
      decodePayload s.count.samples i s = w.apply s ∧ decodePayload t.count.samples i t = w.apply t := by
  have run := payloadRun_congr same room
  have cfg := same.cfg
  rcases decodePayload_cases s.count.samples i s with ⟨short, e⟩ | ⟨full, e⟩
  · refine ⟨.ofRun _ .insufficientData none, e, ?_⟩
    rw [decodePayload_of_short (by rw [← run, ← cfg]; exact short), ← run]
    rfl
  · obtain ⟨w, hw⟩ := exists_writes_judge (payloadRun s s.count.samples i)
    refine ⟨w, e.trans (hw s), ?_⟩
    rw [decodePayload_of_full (by rw [← run, ← cfg]; exact full), ← run]
    exact hw t

/-- The conditions of steps 1 to 3 are on what the two states agree on. -/
theorem sameWrites_of_sameBuffer (same : SameBuffer s t) : SameWrites s t := by
  have scan := scanEnd_congr same
  have valid : ackValid s.cfg.tHalf s.sampleAt s.count.samples (scanEnd s) =
      ackValid t.cfg.tHalf t.sampleAt t.count.samples (scanEnd t) := by
    rw [ackValid_congr _ same.samples, same.cfg, same.count, scan]
  have minEdges : (s.cfg.minEdges : Int) = t.cfg.minEdges := by rw [same.cfg]
  have count := congrArg Cursor.toInt same.count
  have samples := congrArg Cursor.samples same.count
  rcases decodeBuffer_cases s with
    ⟨few, e⟩ | ⟨enough, noLong, e⟩ | ⟨enough, found, invalid, e⟩ | ⟨enough, found, accepted, e⟩
  · refine ⟨⟨none, none, .insufficientData, none⟩, e, ?_⟩
    rw [decodeBuffer_of_few (by omega)]
    rfl
  · refine ⟨⟨some (BitVec.ofNat 8 (scanEnd s)), none, .noAcknowledgement, none⟩, e, ?_⟩
    rw [decodeBuffer_of_noLong (by omega) (scan.symm.trans (Eq.trans noLong samples)), scan]
    rfl
  · refine ⟨⟨some (BitVec.ofNat 8 (scanEnd s)), none, .malformedAcknowledgement, none⟩, e, ?_⟩
    rw [decodeBuffer_of_invalid (by omega) (scan ▸ samples ▸ found) (valid.symm.trans invalid), scan]
    rfl
  · obtain ⟨w, hs, ht⟩ := sameWrites_decodePayload same ((ackValid_iff _ _ _ _).mp accepted).1
    refine ⟨w, e.trans hs, ?_⟩
    rw [decodeBuffer_of_valid (by omega) (scan ▸ samples ▸ found) (valid.symm.trans accepted), ← scan]
    exact ht

end

/-- Settles O53: both states take the same writes. -/
theorem decodeReadsOnlyBelowCount : Obligations.DecodeReadsOnlyBelowCount := by
  intro s t s' same hx
  obtain ⟨closed, rfl⟩ := eq_decodeBuffer_of_exec_decode hx
  obtain ⟨w, hs, ht⟩ := sameWrites_of_sameBuffer same
  refine ⟨_, exec_decode_of_closed (same.gate.symm.trans closed), ?_⟩
  rw [hs, ht]
  exact ⟨rfl, rfl, rfl, fun idx => congrArg w.idx.getD idx, fun nbits => congrArg (w.run.map Prod.fst).getD nbits,
    fun data => congrArg (w.run.map Prod.snd).getD data⟩

/-- DECODE leaves the buffer that it looked at. -/
theorem sameBuffer_respond_decodeBuffer (r : Response) (s : State) : SameBuffer s (respond r (decodeBuffer s)) := by
  obtain ⟨_, _, _, _, _, e, _⟩ := decodeFinished_decodeBuffer s
  rw [e]
  exact ⟨rfl, rfl, rfl, fun _ _ => rfl⟩

/-- Settles O55: the second DECODE looks at the same buffer and writes the same once more. -/
theorem decodeIdempotent : Obligations.DecodeIdempotent := by
  intro s t hx
  obtain ⟨closed, rfl⟩ := eq_decodeBuffer_of_exec_decode hx
  have same := sameBuffer_respond_decodeBuffer .none s
  obtain ⟨w, hs, ht⟩ := sameWrites_of_sameBuffer same
  rw [exec_decode_of_closed (same.gate.symm.trans closed), ht, hs, w.apply_respond_apply]
  rfl

end Sys2Proof.Proofs
end

section
/-! The stepwise decoder (42_protocol_decoder.md R210 to R215) runs through the states that the atomic one computes with:
a scan, an acknowledgement, a run of samples, a verdict (R216). -/

namespace Sys2Proof.Proofs

open Sys2Proof.Machine

theorem decoderSteps_add (a b : Nat) (s : State) : decoderSteps (a + b) s = decoderSteps b (decoderSteps a s) := by
  induction a generalizing s with
  | zero => rw [Nat.zero_add]; rfl
  | succ a ih => rw [Nat.succ_add, decoderSteps, ih, decoderSteps]

/-- `t` is reached from `s` in `k` steps of the stepwise decoder. -/
def ReachesIn (k : Nat) (s t : State) : Prop := decoderSteps k s = t

theorem ReachesIn.trans {a b : Nat} {s t u : State} (ht : ReachesIn a s t) (hu : ReachesIn b t u) :
    ReachesIn (a + b) s u := by
  rw [ReachesIn, decoderSteps_add, ht, hu]

theorem ReachesIn.refl (s : State) : ReachesIn 0 s s := rfl

theorem ReachesIn.head {k : Nat} {s t u : State} (step : decoderStep s = t) (hu : ReachesIn k t u) :
    ReachesIn (k + 1) s u := by
  rw [ReachesIn, decoderSteps, step, hu]

theorem ReachesIn.single {s t : State} (step : decoderStep s = t) : ReachesIn 1 s t := .head step (.refl t)

/-! ## The scan -/

/-- The stepwise decoder in `D_SCAN`, about to look at sample `i`. -/
def scanning (s : State) (i : Nat) : State := { s with decIdx := BitVec.ofNat 8 i, decState := .scan }

section
variable (s : State) (i : Nat)
@[simp] theorem scanning_count : (scanning s i).count = s.count := rfl
@[simp] theorem scanning_cfg : (scanning s i).cfg = s.cfg := rfl
@[simp] theorem scanning_sampleAt (k : Nat) : (scanning s i).sampleAt k = s.sampleAt k := rfl
theorem scanning_next : { scanning s i with decIdx := (scanning s i).decIdx + 1 } = scanning s (i + 1) := by
  rw [scanning, scanning, BitVec.ofNat_add]
  rfl
end

section
variable {s : State}

theorem scanning_index {i : Nat} (fits : i < 256) : (scanning s i).decIdx.toNat = i := Nat.mod_eq_of_lt fits

theorem decoderScan_end {i : Nat} (fits : i < 256) (atEnd : i = s.count.samples) :
    decoderScan (scanning s i) = raiseFail true .noAcknowledgement (scanning s i) :=
  if_pos ((scanning_index fits).trans atEnd)

theorem decoderScan_long {i : Nat} (fits : i < 256) (below : i < s.count.samples)
    (long : isLong s.cfg.tAck (s.sampleAt i) = true) :
    decoderScan (scanning s i) = { scanning s i with decState := .ack } := by
  simp [decoderScan, scanning_index fits, below.ne, long]

theorem decoderScan_short {i : Nat} (fits : i < 256) (below : i < s.count.samples)
    (short : isLong s.cfg.tAck (s.sampleAt i) = false) : decoderScan (scanning s i) = scanning s (i + 1) := by
  rw [← scanning_next]
  simp [decoderScan, scanning_index fits, below.ne, short]

/-- In `D_SCAN` the stepwise decoder goes where the scan of step 2 goes, one sample a step. -/
theorem reachesIn_scan (fits : s.count.samples < 256) (left i : Nat) (rest : i + left = s.count.samples) :
    ReachesIn (scanFrom s.cfg.tAck s.sampleAt left i - i) (scanning s i)
      (scanning s (scanFrom s.cfg.tAck s.sampleAt left i)) := by
  induction left generalizing i with
  | zero => rw [scanFrom, Nat.sub_self]; exact .refl _
  | succ left ih =>
    rw [scanFrom]
    split_ifs with long
    · rw [Nat.sub_self]; exact .refl _
    · have ahead := (scanFrom_spec s.cfg.tAck s.sampleAt left (i + 1)).1
      have onward := decoderScan_short (by omega) (by omega) (Bool.eq_false_iff.mpr long)
      have one : scanFrom s.cfg.tAck s.sampleAt left (i + 1) - i =
          scanFrom s.cfg.tAck s.sampleAt left (i + 1) - (i + 1) + 1 := by omega
      rw [one]
      exact .head onward (ih (i + 1) (by omega))

end

/-! ## The run of samples -/

/-- The stepwise decoder in `D_BITS`, having recovered `r`. -/
def recovering (s : State) (r : BitRun) : State := { loadRun r s with decState := .bits }

section
variable (s : State) (r : BitRun)
@[simp] theorem recovering_count : (recovering s r).count = s.count := rfl
@[simp] theorem recovering_cfg : (recovering s r).cfg = s.cfg := rfl
@[simp] theorem recovering_data : (recovering s r).data = r.data := rfl
@[simp] theorem recovering_sampleAt (k : Nat) : (recovering s r).sampleAt k = s.sampleAt k := rfl
@[simp] theorem loadRun_recovering (r' : BitRun) : loadRun r' (recovering s r) = recovering s r' := rfl
end

section
variable {s : State} {r : BitRun}

theorem recovering_index (fits : r.idx < 256) : (recovering s r).decIdx.toNat = r.idx := Nat.mod_eq_of_lt fits

theorem recovering_bitCount (fits : r.nbits < 64) : (recovering s r).decNbits.toNat = r.nbits := Nat.mod_eq_of_lt fits

theorem decoderBits_full (fits : r.nbits < 64) (full : r.nbits = s.cfg.payloadBits) :
    decoderBits (recovering s r) = { recovering s r with decState := .sum } := by
  simp [decoderBits, recovering_bitCount fits, full]

theorem decoderBits_end (fits : r.nbits < 64) (short : r.nbits ≠ s.cfg.payloadBits) (index : r.idx < 256)
    (atEnd : r.idx = s.count.samples) :
    decoderBits (recovering s r) = raiseFail true .insufficientData (recovering s r) := by
  simp [decoderBits, recovering_bitCount fits, short, recovering_index index, atEnd]

theorem decoderBits_sample (fits : r.nbits < 64) (short : r.nbits ≠ s.cfg.payloadBits) (index : r.idx < 256)
    (below : r.idx < s.count.samples) :
    decoderBits (recovering s r) = recovering s (takeSample s.cfg.tBit (s.sampleAt r.idx) r) := by
  simp [decoderBits, recovering_bitCount fits, short, recovering_index index, below.ne]

/-- In `D_BITS` the stepwise decoder goes where the run of step 4 goes, one sample a step. -/
theorem reachesIn_extract (fits : s.count.samples < 256) (bits : s.cfg.payloadBits < 64) (left : Nat) (r : BitRun)
    (rest : r.idx + left = s.count.samples) (within : r.nbits ≤ s.cfg.payloadBits) :
    ReachesIn ((extractFrom s.cfg.payloadBits s.cfg.tBit s.sampleAt left r).idx - r.idx) (recovering s r)
      (recovering s (extractFrom s.cfg.payloadBits s.cfg.tBit s.sampleAt left r)) := by
  induction left generalizing r with
  | zero => rw [extractFrom, Nat.sub_self]; exact .refl _
  | succ left ih =>
    rw [extractFrom]
    split_ifs with full
    · rw [Nat.sub_self]; exact .refl _
    · have onward := decoderBits_sample (by omega) full (by omega) (by omega : r.idx < s.count.samples)
      have next := takeSample_idx s.cfg.tBit (s.sampleAt r.idx) r
      have more : (takeSample s.cfg.tBit (s.sampleAt r.idx) r).nbits ≤ s.cfg.payloadBits := by
        rcases takeSample_cases s.cfg.tBit (s.sampleAt r.idx) r with ⟨_, e⟩ | ⟨_, e⟩ <;> simp only [e] <;> omega
      have ahead := (extractFrom_bounds s.cfg.payloadBits s.cfg.tBit s.sampleAt left _ more).2.1
      have reached : ReachesIn _ (recovering s r) _ := .head onward (ih _ (by omega) more)
      convert reached using 1
      omega

end

/-! ## From the entry to the verdict -/

/-- The verdict does not look at the decoder's state, and replaces it. -/
theorem judge_of_decState (s : State) (d : DecState) : judge { s with decState := d } = judge s := rfl

section
variable {s : State} {i : Nat}

/-- From the first long sample, the two steps that find it and reject it. -/
theorem reachesIn_malformed (fits : s.count.samples < 256) (below : i < s.count.samples)
    (long : isLong s.cfg.tAck (s.sampleAt i) = true)
    (invalid : ackValid s.cfg.tHalf s.sampleAt s.count.samples i = false) :
    ReachesIn 2 (scanning s i) (raiseFail true .malformedAcknowledgement { s with decIdx := BitVec.ofNat 8 i }) := by
  have index : (scanning s i).decIdx.toNat = i := scanning_index (by omega)
  have rejected : decoderAck { scanning s i with decState := .ack } =
      raiseFail true .malformedAcknowledgement { scanning s i with decState := .ack } :=
    if_pos (by dsimp only; rw [index]; exact congrArg not invalid)
  exact .head (decoderScan_long (by omega) below long) (.single rejected)

/-- From the first long sample, the two steps that find it and accept it. -/
theorem reachesIn_acknowledged (fits : s.count.samples < 256) (below : i < s.count.samples)
    (long : isLong s.cfg.tAck (s.sampleAt i) = true)
    (valid : ackValid s.cfg.tHalf s.sampleAt s.count.samples i = true) :
    ReachesIn 2 (scanning s i) (recovering s ⟨Payload.zero, 0, i + 4⟩) := by
  have index : (scanning s i).decIdx.toNat = i := scanning_index (by omega)
  have accepted : decoderAck { scanning s i with decState := .ack } = recovering s ⟨Payload.zero, 0, i + 4⟩ := by
    refine (if_neg (by dsimp only; rw [index]; exact Bool.eq_false_iff.mp (congrArg not valid))).trans ?_
    rw [recovering, loadRun, BitVec.ofNat_add]
    rfl
  exact .head (decoderScan_long (by omega) below long) (.single accepted)

/-- From the end of the run, at most two steps to what the atomic decoder leaves of it. -/
theorem reachesIn_verdict (fits : s.count.samples < 256) (bits : s.cfg.payloadBits < 64)
    (room : i + 3 < s.count.samples) :
    ∃ k ≤ 2, ReachesIn k (recovering s (payloadRun s s.count.samples i)) (decodePayload s.count.samples i s) := by
  have atMost := payloadRun_idx_le s room
  rcases decodePayload_cases s.count.samples i s with ⟨short, e⟩ | ⟨full, e⟩ <;> rw [e]
  · have atEnd := payloadRun_idx_of_short room short
    exact ⟨1, by decide, .single (decoderBits_end (short.trans bits) short.ne (by omega) atEnd)⟩
  · exact ⟨2, le_rfl, .head (decoderBits_full (full.trans_lt bits) full) (.single (judge_of_decState _ .sum))⟩

end

theorem reachesIn_decodeBuffer {s : State} (fits : s.count.samples < 256) (bits : s.cfg.payloadBits < 64) :
    ∃ k : Nat, (k : Int) ≤ s.count.toInt + 2 ∧ ReachesIn k (decoderEntry s) (decodeBuffer s) := by
  by_cases few : s.count.toInt < s.cfg.minEdges
  · have entry : decoderEntry s = decodeBuffer s := (if_pos few).trans (decodeBuffer_of_few few).symm
    have least : -1 ≤ s.count.toInt := by cases s.count <;> simp only [Cursor.toInt] <;> omega
    exact ⟨0, by omega, entry⟩
  have enough := not_lt.mp few
  have samples : (s.count.samples : Int) = s.count.toInt := by
    cases hc : s.count
    · simp only [hc, Cursor.toInt] at enough; omega
    · rfl
  have entry : decoderEntry s = scanning s 0 := if_neg few
  have scan : ReachesIn (scanEnd s - 0) (scanning s 0) (scanning s (scanEnd s)) :=
    reachesIn_scan fits s.count.samples 0 (Nat.zero_add _)
  obtain ⟨_, inside, _, stopped⟩ := scanFrom_spec s.cfg.tAck s.sampleAt s.count.samples 0
  rw [entry]
  by_cases noLong : scanEnd s = s.count.samples
  · have fails := ReachesIn.single (s := scanning s (scanEnd s)) (decoderScan_end (by omega) noLong)
    rw [decodeBuffer_of_noLong enough noLong]
    exact ⟨_, by omega, scan.trans fails⟩
  have below : scanEnd s < s.count.samples := lt_of_le_of_ne (inside.trans_eq (Nat.zero_add _)) noLong
  have long : isLong s.cfg.tAck (s.sampleAt (scanEnd s)) = true :=
    decide_eq_true (stopped (below.trans_eq (Nat.zero_add _).symm))
  cases valid : ackValid s.cfg.tHalf s.sampleAt s.count.samples (scanEnd s) with
  | false =>
    rw [decodeBuffer_of_invalid enough noLong valid]
    exact ⟨_, by omega, scan.trans (reachesIn_malformed fits below long valid)⟩
  | true =>
    have room := ((ackValid_iff _ _ _ _).mp valid).1
    obtain ⟨k, soon, verdict⟩ := reachesIn_verdict fits bits room
    have run := reachesIn_extract fits bits (s.count.samples - (scanEnd s + 4)) ⟨Payload.zero, 0, scanEnd s + 4⟩
      (by dsimp only; omega) (Nat.zero_le _)
    have atMost := payloadRun_idx_le s room
    rw [decodeBuffer_of_valid enough noLong valid]
    exact ⟨_, by rw [payloadRun] at atMost; dsimp only; omega,
      ((scan.trans (reachesIn_acknowledged fits below long valid)).trans run).trans verdict⟩

/-- Settles O56: the state that the stepwise decoder reaches is the one DECODE puts its response in. -/
theorem stepwiseDecoderAgrees : Obligations.StepwiseDecoderAgrees := by
  intro s inv closed
  obtain ⟨⟨_, capacity⟩, ⟨forty, _⟩, _⟩ := inv.config
  obtain ⟨k, within, reached⟩ := reachesIn_decodeBuffer (s := s)
    (Nat.lt_succ_of_le (inv.count_le.trans capacity)) (forty.trans_lt (by decide))
  obtain ⟨_, _, _, _, _, finished, _⟩ := decodeFinished_decodeBuffer s
  refine ⟨k, by omega, ?_, ?_⟩
  · rw [reached, finished]
  · rw [reached, exec_decode_of_closed closed]
    rfl

end Sys2Proof.Proofs
end

section
/-! The standard buffer of a reading (95_test_vectors.md section 3) carries the forty bits of the reading's payload behind
a valid acknowledgement, and the reading of that payload is the reading itself (42_protocol_decoder.md R209 e). -/

namespace Sys2Proof.Proofs

open Sys2Proof.Machine

/-! ## The standard buffer -/

/-- The buffer of `s` holds the 85 standard samples of `p`, and the nominal timings fit the parameters. -/
structure StandardBuffer (s : State) (p : Payload) : Prop where
  count : s.count = .stored 85
  enough : s.cfg.minEdges ≤ 85
  tAck : s.cfg.tAck ≤ 2000
  tHalf : s.cfg.tHalf < 80
  above : 26 < s.cfg.tBit
  upTo : s.cfg.tBit ≤ 70
  samples : ∀ k < 85, s.sampleAt k = standardSample p k

section
variable {s : State} {p : Payload}

theorem acknowledged_standard (h : StandardBuffer s p) : Acknowledged s 0 85 where
  count := h.count
  enough := h.enough
  room := by decide
  first _ hk := absurd hk (Nat.not_lt_zero _)
  long := by rw [h.samples 0 (by decide)]; exact h.tAck
  low := by rw [h.samples 0 (by decide)]; rfl
  half1 := by rw [h.samples 2 (by decide)]; exact h.tHalf
  half2 := by rw [h.samples 3 (by decide)]; exact h.tHalf

/-- Each bit begins with a low sample, -/
theorem standardSample_even (p : Payload) (m : Nat) : standardSample p (4 + 2 * m) = ⟨50, .low⟩ := by
  rw [standardSample, if_neg (by omega), if_neg (by omega), if_neg (by omega), if_neg (by omega), if_pos (by omega)]

/-- and its high sample is long exactly for a 1. -/
theorem standardSample_odd (p : Payload) (m : Nat) :
    standardSample p (4 + 2 * m + 1) = ⟨if payloadBit p m then 70 else 26, .high⟩ := by
  have bit : (4 + 2 * m + 1 - 4) / 2 = m := by omega
  rw [standardSample, if_neg (by omega), if_neg (by omega), if_neg (by omega), if_neg (by omega), if_neg (by omega),
    bit]
  cases payloadBit p m <;> rfl

theorem bitOf_standard (h : StandardBuffer s p) (b : Bool) : bitOf s.cfg.tBit ⟨if b then 70 else 26, .high⟩ = b := by
  cases b
  · exact decide_eq_false (Nat.not_le.mpr h.above)
  · exact decide_eq_true h.upTo

theorem arrivedBits_standard (h : StandardBuffer s p) (m : Nat) (hm : m ≤ 40) :
    arrivedBits s 4 (4 + 2 * m) = (List.range m).map (payloadBit p) := by
  induction m with
  | zero => exact arrivedBits_self
  | succ m ih =>
    have low : s.sampleAt (4 + 2 * m) = _ := (h.samples _ (by omega)).trans (standardSample_even p m)
    have high : s.sampleAt (4 + 2 * m + 1) = _ := (h.samples _ (by omega)).trans (standardSample_odd p m)
    rw [show 4 + 2 * (m + 1) = 4 + 2 * m + 1 + 1 by omega, arrivedBits_succ_of_high (by omega) (by rw [high]),
      arrivedBits_succ_of_low (by rw [low]), ih (by omega), high, bitOf_standard h, List.range_succ, List.map_append]
    rfl

theorem isPayload_standard (h : StandardBuffer s p) : IsPayload s 4 85 p := by
  have last : s.sampleAt 84 = _ := (h.samples _ (by omega)).trans (standardSample_even p 40)
  have all : arrivedBits s 4 85 = (List.range 40).map (payloadBit p) :=
    (arrivedBits_succ_of_low (by rw [last])).trans (arrivedBits_standard h 40 le_rfl)
  refine ⟨by rw [all, List.length_map, List.length_range], fun k hk => ?_⟩
  rw [all, List.getElem?_map, List.getElem?_range hk]
  rfl

theorem afterFortieth_standard (h : StandardBuffer s p) : AfterFortieth s 4 85 84 where
  le := by decide
  forty := by rw [arrivedBits_standard h 40 le_rfl, List.length_map, List.length_range]
  supplied := ⟨83, rfl, by decide, by rw [h.samples 83 (by decide), standardSample_odd p 39]⟩

end

/-! ## The payload of a reading -/

theorem reading_ext_value {r r' : Reading} (kind : r'.kind = r.kind) (hum : r'.hum.toNat = r.hum.toNat)
    (temp : r'.temp.toInt = r.temp.toInt) : r' = r := by
  obtain ⟨_, _, _⟩ := r
  obtain ⟨_, _, _⟩ := r'
  cases kind
  cases BitVec.eq_of_toNat_eq hum
  cases BitVec.eq_of_toInt_eq temp
  rfl

/-- The fifth byte is the sum of the others, whatever the reading. -/
theorem payloadOf_sum (r : Reading) :
    ((payloadOf r).b0.toNat + (payloadOf r).b1.toNat + (payloadOf r).b2.toNat + (payloadOf r).b3.toNat) % 256 =
      (payloadOf r).b4.toNat := by
  simp only [payloadOf, BitVec.toNat_add]
  omega

section
variable {r : Reading}

/-- The bytes of a kind A reading of whole values: the values themselves, and 0. -/
theorem payloadOf_kindA (kind : r.kind = .a) {h t : Nat} (hum : r.hum.toNat = 10 * h) (temp : r.temp.toInt = 10 * t)
    (hh : h ≤ 255) (ht : t ≤ 255) :
    (payloadOf r).b0.toNat = h ∧ ((payloadOf r).b1 = 0 ∧ (payloadOf r).b3 = 0) ∧ (payloadOf r).b2.toNat = t := by
  simp only [payloadOf, kind, hum, temp, BitVec.toNat_ofNat]
  exact ⟨by omega, ⟨trivial, trivial⟩, by omega⟩

/-- The bytes of a kind B reading: the humidity, and the sign and the magnitude of the temperature. -/
theorem payloadOf_kindB (kind : r.kind = .b) (least : r.temp.toInt ≠ -32768) :
    256 * (payloadOf r).b0.toNat + (payloadOf r).b1.toNat = r.hum.toNat ∧
    (payloadOf r).b1.toNat = r.hum.toNat % 256 ∧
    (128 ≤ (payloadOf r).b2.toNat ↔ r.temp.toInt < 0) ∧
    256 * ((payloadOf r).b2.toNat % 128) + (payloadOf r).b3.toNat = r.temp.toInt.natAbs ∧
    (payloadOf r).b3.toNat = r.temp.toInt.natAbs % 256 := by
  have hum := r.hum.isLt
  have above := BitVec.le_toInt r.temp
  have below := BitVec.toInt_lt (x := r.temp)
  simp only [payloadOf, kind, BitVec.toNat_ofNat]
  split_ifs <;> omega

/-- The payload of a reading that can round-trip passes both tests and has that reading. -/
theorem readingOf_payloadOf (trips : RoundTrips r) :
    ¬((payloadOf r).b0 = 0 ∧ (payloadOf r).b1 = 0 ∧ (payloadOf r).b2 = 0 ∧ (payloadOf r).b3 = 0) ∧
      readingOf (payloadOf r) = r := by
  cases kind : r.kind with
  | a =>
    simp only [RoundTrips, kind] at trips
    obtain ⟨h, t, hh, ht, nonzero, hum, temp⟩ := trips
    obtain ⟨b0, zero, b2⟩ := payloadOf_kindA kind hum temp hh ht
    obtain ⟨kindA, humA, tempA⟩ := readingOf_kindA zero
    refine ⟨fun ⟨z0, _, z2, _⟩ => ?_, reading_ext_value (kindA.trans kind.symm) ?_ ?_⟩
    · rw [z0] at b0
      rw [z2] at b2
      exact nonzero.elim (absurd b0.symm) (absurd b2.symm)
    · rw [humA, b0, hum]
    · rw [tempA, b2, temp]
  | b =>
    simp only [RoundTrips, kind] at trips
    obtain ⟨least, nonzero⟩ := trips
    obtain ⟨hum, b1, sign, mag, b3⟩ := payloadOf_kindB kind least
    have apart : ¬((payloadOf r).b1 = 0 ∧ (payloadOf r).b3 = 0) := by
      rintro ⟨z1, z3⟩
      rw [z1] at b1
      rw [z3] at b3
      exact nonzero ⟨b1.symm, b3.symm⟩
    obtain ⟨kindB, humB, tempB⟩ := readingOf_kindB apart
    refine ⟨fun ⟨_, z1, _, z3⟩ => apart ⟨z1, z3⟩,
      reading_ext_value (kindB.trans kind.symm) (humB.trans hum) (tempB.trans ?_)⟩
    split_ifs <;> omega

end

/-- Settles O57: the standard buffer carries the payload of the reading, whose 40th bit sample 83 supplies. -/
theorem standardBufferRoundTrips : Obligations.StandardBufferRoundTrips := by
  intro r s trips wf closed count enough tAck tHalf above upTo samples
  have standard : StandardBuffer s (payloadOf r) := ⟨count, enough, tAck, tHalf, above, upTo, samples⟩
  obtain ⟨nonzero, reading⟩ := readingOf_payloadOf trips
  obtain ⟨j, after, e⟩ :=
    exec_decode_of_isPayload wf closed (acknowledged_standard standard) (isPayload_standard standard)
  obtain rfl := afterFortieth_unique after (afterFortieth_standard standard)
  rw [judge_of_reading (payloadOf_sum r) nonzero] at e
  exact ⟨_, e, rfl, congrArg some reading, rfl, rfl, rfl⟩

end Sys2Proof.Proofs
end

section
/-! The two contexts and the failure codes (60_exceptions.md R263, R282): an operation issued by the other context is
refused, EDGE writes nothing but the buffer, and NoAcknowledgement is the failure of step 2 alone. -/

namespace Sys2Proof.Proofs

open Sys2Proof.Machine

/-! ## The issuer of an operation -/

/-- EDGE is the one operation of the callback (60_exceptions.md R282). -/
theorem context_of_not_edge {i : Instr} (notEdge : ∀ l now, i ≠ .edge l now) : i.context = .controlling := by
  cases i with
  | edge l now => exact absurd rfl (notEdge l now)
  | arm | enable | disarm | rdcnt | rdsmp | start | tick | decode | rdres => rfl

theorem receive_of_wrong_context {o : Issued} {i : Instr} (s : State) (hd : decode o.word = .ok i)
    (hc : o.issuer ≠ i.context) : receive o s = .refuse (.wrongContext o.issuer) := by
  simp only [receive, hd, if_neg hc]

/-- Settles O6: in both pairings the issuer is not the operation's own context, and the fetch refuses such an issuer. -/
theorem wrongContextRefused : Obligations.WrongContextRefused := by
  intro s o rest i hp hd pairing
  have wrong : o.issuer ≠ i.context := by
    rcases pairing with ⟨⟨l, now, rfl⟩, issuer⟩ | ⟨notEdge, issuer⟩
    · rw [issuer]
      exact nofun
    · rw [issuer, context_of_not_edge notEdge]
      exact nofun
  exact step_of_fetch_refuse ((fetch_of_pending_op hp).trans (receive_of_wrong_context _ hd wrong))

/-! ## What the callback can touch -/

/-- Settles O19: whether an EDGE is dropped, arms or stores, it writes no other register. -/
theorem edgeTouchesOnlyBuffer : Obligations.EdgeTouchesOnlyBuffer := by
  intro l now s t hx
  rcases exec_edge_cases hx with rfl | ⟨_, rfl⟩ | ⟨n, _, _, rfl⟩
  · rfl
  · rfl
  · rfl

/-! ## NoAcknowledgement -/

section
variable {s : State}

/-- The scan reaches `count` exactly where it meets no long sample (42_protocol_decoder.md R193). -/
theorem scanEnd_eq_samples_iff :
    scanEnd s = s.count.samples ↔ ∀ k < s.count.samples, (s.sampleAt k).duration.toNat < s.cfg.tAck := by
  obtain ⟨_, inside, skipped, stopped⟩ := scanFrom_spec s.cfg.tAck s.sampleAt s.count.samples 0
  rw [Nat.zero_add] at inside stopped
  constructor
  · intro atEnd k below
    exact skipped k k.zero_le (below.trans_eq atEnd.symm)
  · intro short
    by_contra early
    have below : scanEnd s < s.count.samples := lt_of_le_of_ne inside early
    exact absurd (stopped below) (Nat.not_le.mpr (short _ below))

theorem judge_err_ne_noAcknowledgement : (judge s).err ≠ .noAcknowledgement := by
  rcases judge_cases s with ⟨_, e⟩ | ⟨_, _, e⟩ | ⟨_, _, e⟩ <;> rw [e] <;> exact nofun

theorem decodePayload_err_ne_noAcknowledgement (n i : Nat) : (decodePayload n i s).err ≠ .noAcknowledgement := by
  rcases decodePayload_cases n i s with ⟨_, e⟩ | ⟨_, e⟩ <;> rw [e]
  · exact nofun
  · exact judge_err_ne_noAcknowledgement

/-- Of the failures of DECODE only that of step 2 has this code (60_exceptions.md R263). -/
theorem decodeBuffer_err_eq_noAcknowledgement_iff :
    (decodeBuffer s).err = .noAcknowledgement ↔
      (s.cfg.minEdges : Int) ≤ s.count.toInt ∧ scanEnd s = s.count.samples := by
  rcases decodeBuffer_cases s with ⟨few, e⟩ | ⟨enough, noLong, e⟩ | ⟨_, found, _, e⟩ | ⟨_, found, _, e⟩ <;> rw [e]
  · exact ⟨nofun, fun ⟨enough, _⟩ => absurd few (not_lt.mpr enough)⟩
  · exact ⟨fun _ => ⟨enough, noLong⟩, fun _ => rfl⟩
  · exact ⟨nofun, fun ⟨_, noLong⟩ => absurd noLong found⟩
  · exact ⟨fun h => absurd h (decodePayload_err_ne_noAcknowledgement _ _), fun ⟨_, noLong⟩ => absurd noLong found⟩

end

/-- Settles O47: the code is that of step 2, whose scan has passed every sample below `count`. -/
theorem decodeNoAcknowledgement : Obligations.DecodeNoAcknowledgement := by
  intro s t hx
  obtain ⟨_, rfl⟩ := eq_decodeBuffer_of_exec_decode hx
  rw [respond_err, decodeBuffer_err_eq_noAcknowledgement_iff]
  refine ⟨and_congr_right' scanEnd_eq_samples_iff, fun ⟨enough, noLong⟩ => ?_⟩
  rw [decodeBuffer_of_noLong enough noLong, noLong]
  rfl

end Sys2Proof.Proofs
end

section
/-! Reset and the parameters (70_reset_and_hazards.md): what a step with the reset event next leaves, what the reset state
answers, and that no step changes a parameter (R300, R301, R304). -/

namespace Sys2Proof.Proofs

open Sys2Proof.Machine

/-! ## The parameters -/

theorem startSession_cfg (p : PinNum) (now : Micros) (s : State) : (startSession p now s).cfg = s.cfg := by
  obtain ⟨_, e | e | e⟩ := startSession_updates p now s <;> rw [e]

theorem cfg_of_opEffect {i : Instr} {s t : State} (he : OpEffect s i t) : t.cfg = s.cfg := by
  cases he with
  | arm | enable | disarm | unchanged | freeValue | armingEdge | storedEdge => rfl
  | session pin now => exact startSession_cfg pin now s
  | tick now => exact (advance_sameCapture now s).cfg
  | decode => exact (decodeBuffer_sameCapture s).cfg

theorem exec_keeps_cfg {i : Instr} {s t : State} (hx : exec i s = .next t) : t.cfg = s.cfg := by
  obtain ⟨r, u, rfl, he⟩ := opEffect_of_exec hx
  exact (respond_cfg u r).trans (cfg_of_opEffect he)

/-- Settles O12: no effect of an operation writes the parameters, nor does the reset event or taking an event off. -/
theorem parametersConstant : Obligations.ParametersConstant := by
  intro s t hx
  rcases step_next_cases hx with ⟨_, rfl⟩ | ⟨_, _, rfl⟩ | ⟨_, _, _, _, _, _, hi⟩
  · rfl
  · rfl
  · exact (exec_keeps_cfg hi :)

/-! ## The reset event -/

theorem fetch_of_pending_reset {s : State} {rest : List Event} (hp : s.pending = .reset :: rest) :
    fetch s = .reset { s with pending := rest } := by
  simp only [fetch, hp]

theorem step_of_fetch_reset {s t : State} (hf : fetch s = .reset t) : step s = .next (resetEvent t) := by
  simp only [step, hf]

/-- Settles O9: the step answers `resetEvent` of the state with the event taken off, whose writes these are. -/
theorem resetEventWritesTable : Obligations.ResetEventWritesTable := by
  intro s rest hp
  exact ⟨_, step_of_fetch_reset (fetch_of_pending_reset hp), rfl, rfl, rfl, rfl, rfl, rfl, rfl, rfl, rfl, rfl, rfl, rfl⟩

/-! ## The reset state -/

/-- With the sequencer and the decoder idle, no failure and no reading, every status bit of the RDRES word is 0
(30_encoding.md R104). -/
theorem resultWord_idle_status (low : BitVec 33) :
    (resultWord .idle false .none false low).extractLsb' 33 8 = 0 :=
  ((eq_append_iff _ low _).mp rfl).1

/-- Settles O10: in the reset state there is no reading, the gate is closed and `count` is below `MIN_EDGES`. -/
theorem resetStateIsIdleAndMasked : Obligations.ResetStateIsIdleAndMasked := by
  have closed : State.reset.cbEn = false := rfl
  have few : State.reset.count.toInt < State.reset.cfg.minEdges := by decide
  refine ⟨rfl, ⟨_, exec_rdres_of_none rfl, resultWord_idle_status _⟩, fun l t => exec_edge_of_closed closed, ?_⟩
  rw [exec_decode_of_closed closed, decodeBuffer_of_few few]
  rfl

end Sys2Proof.Proofs
end
